-- ==== Sys2Proof/Word.lean ====
section
/-! DEFINITION. The widths of spec/00_scope.md R12: bytes, half words, words and register offsets. -/

namespace Sys2Proof

/-- A byte, 0 to 255 (R12). -/
abbrev Byte := BitVec 8

/-- `u16` (R12). -/
abbrev Half := BitVec 16

/-- `u32` (R12); every host-visible register has this width (R11). -/
abbrev Word := BitVec 32

/-- A register byte offset, `u15` (R50). -/
abbrev Offset := BitVec 15

end Sys2Proof
end

