-- ==== Sys2Proof/Config.lean ====
section
/-! DEFINITION. The fixed constants of spec/00_scope.md R10, the implementation parameters of R7 to R9, and the one
free value: the identifier that `frame_id_rand` gives when the environment has listed none (R192). -/

namespace Sys2Proof.Config

/-- `FRAME_LEN` (R10): a frame is 64 bytes on the wire. -/
def frameLen : Nat := 64

/-- `PAYLOAD_LEN` (R10). -/
def payloadLen : Nat := 50

/-- `CRC_SPAN` (R10): the CRC covers bytes 0 to 59 (R74, C1). -/
def crcSpan : Nat := 60

/-- `PRE_DATA` (R10). -/
def preData : Half := 0x0001#16

/-- `PRE_DISC_REQ` (R10). -/
def preDiscReq : Half := 0x0002#16

/-- `PRE_DISC_RSP` (R10). -/
def preDiscRsp : Half := 0x0003#16

/-- `ADDR_BCAST` (R10): "broadcast/reserved" (R73). -/
def addrBcast : Byte := 0x00#8

/-- `ADDR_HOST` (R10). -/
def addrHost : Byte := 0x01#8

/-- The lowest device address (R10). -/
def deviceFirst : Byte := 0x02#8

/-- The highest device address (R10). -/
def deviceLast : Byte := 0x7F#8

/-- `MAX_MSG = 255 * 50` (R10). -/
def maxMsg : Nat := 12750

/-- The parameters of one instance: `P_NB` (R7), `P_TXQ` (R8) and `P_MAXFRAG` (R9), at the widths `CONFIG` shows
them in (R40). -/
structure Params where
  nb      : BitVec 8
  txqMax  : BitVec 16
  maxFrag : BitVec 8
  deriving DecidableEq, Repr

/-- The ranges of R7, R8 and R9: `P_NB` and `P_TXQ` from 1, `P_MAXFRAG` from 2; the widths give the upper ends. -/
def Params.legal (p : Params) : Bool := 1 ≤ p.nb.toNat && 1 ≤ p.txqMax.toNat && 2 ≤ p.maxFrag.toNat

/-- The parameters of the instance that `State.reset` describes: the test configuration of 95_test_vectors.md §1.
DESIGN CHOICE (entry 1): R7 and R8 leave `P_NB` and `P_TXQ` OPEN. Every statement about a step holds for all legal
parameters, because they stand in the state. -/
def params : Params := { nb := 2#8, txqMax := 2#16, maxFrag := 255#8 }

/-- FREE VALUE (entry 7): the n-th draw from `frame_id_rand`, where the environment has listed no value. R192: "The
model places no law on draws". One constant for every instance: DESIGN CHOICE (entry 23). -/
opaque freeFrameId : Nat → Word

end Sys2Proof.Config
end

