-- ==== Sys2Proof/Syntax.lean ====
section
/-! DEFINITION. The frame record (R120), the transfers the environment offers in the four formats of
spec/30_encoding.md, the five events of R80, and `Instr`: one constructor per mnemonic of spec/opcode_table.json. -/

namespace Sys2Proof

/-- A frame value (R120). On the wire the payload is exactly 50 bytes (R70); going into the codec's `encode` it may be
shorter. -/
structure Frame where
  preamble   : Half
  dest       : Byte
  src        : Byte
  frameId    : Word
  frameOrder : Byte
  frameTotal : Byte
  payload    : List Byte
  crc        : Word
  deriving DecidableEq, Repr

/-- What an address names (R10, R73). No value above 0x7F is assigned. -/
inductive AddressKind where
  | broadcast
  | host
  | device
  | unassigned
  deriving DecidableEq, Repr

/-- The four formats of 30_encoding.md. -/
inductive Format where
  | event
  | cmd
  | reg
  | frame
  deriving DecidableEq, Repr

/-- One event as the environment offers it: the format it is written in, and its bytes. DESIGN CHOICE (entries 2 and
11): no wire carries the event tag (R80) or the register key (R79), so their byte form is the model's. -/
structure Transfer where
  format : Format
  bytes  : List Byte
  deriving DecidableEq, Repr

/-- Everything that can happen to a link engine (R80). -/
inductive Event where
  | reset
  | tick     (rx : List Byte)
  | submit   (m : List Byte)
  | regRead  (off : Offset)
  | regWrite (off : Offset) (v : Word)
  deriving DecidableEq, Repr

/-- One constructor per mnemonic of spec/opcode_table.json. `arg` and `hi` are ARG (bits 15:8) and the ignored bits
31:16 of a command word (R76); `off` is the register offset where a row admits several; `v` is the data of a write. -/
inductive Instr where
  -- EVENT (R80)
  | reset
  | tick     (rx : List Byte)
  | submit   (m : List Byte)
  | regRead  (off : Offset)
  | regWrite (off : Offset) (v : Word)
  -- CMD (R77): a write of the word to CMD
  | nop         (arg : Byte) (hi : Half)
  | crcInit     (arg : Byte) (hi : Half)
  | crcByte     (arg : Byte) (hi : Half)
  | start       (arg : Byte) (hi : Half)
  | stop        (arg : Byte) (hi : Half)
  | softReset   (arg : Byte) (hi : Half)
  | discStart   (arg : Byte) (hi : Half)
  | cmdReserved (opc arg : Byte) (hi : Half)
  -- REG, reads (R79)
  | rdCmd
  | rdStatus
  | rdAddr
  | rdCrcResult
  | rdBucketTtl
  | rdDiscTimeout
  | rdLastSeq
  | rdLastLen
  | rdConfig
  | rdLastData   (off : Offset)
  | rdMisaligned (off : Offset)
  | rdReserved   (off : Offset)
  -- REG, writes (R79)
  | wrCmd         (v : Word)
  | wrStatus      (v : Word)
  | wrAddr        (v : Word)
  | wrBucketTtl   (v : Word)
  | wrDiscTimeout (v : Word)
  | wrCrcResult   (v : Word)
  | wrLastSeq     (v : Word)
  | wrLastLen     (v : Word)
  | wrConfig      (v : Word)
  | wrLastData    (off : Offset) (v : Word)
  | wrMisaligned  (off : Offset) (v : Word)
  | wrReserved    (off : Offset) (v : Word)
  -- FRAME (R72): a frame received in a TICK
  | frameData     (f : Frame)
  | frameDiscReq  (f : Frame)
  | frameDiscRsp  (f : Frame)
  | frameReserved (f : Frame)
  deriving DecidableEq, Repr

end Sys2Proof
end

