-- ==== Sys2Proof/WellFormed.lean ====
section
/-! DEFINITION. Which terms of `Instr` stand for a row of spec/opcode_table.json: the ranges of the operands that a
row admits. -/

namespace Sys2Proof

/-- `off[1:0] = 0` (R50). -/
def Offset.aligned (off : Offset) : Bool := off.extractLsb' 0 2 == 0#2

/-- `off[14] = 1`: the LAST_DATA window (R79). -/
def Offset.inWindow (off : Offset) : Bool := off.getLsbD 14

/-- A reserved offset (R53): aligned, 0x0024 to 0x3FFC. -/
def Offset.reserved (off : Offset) : Bool := off.aligned && !off.inWindow && 0x0024 ≤ off.toNat

/-- A frame as the wire carries it (R70), of one preamble. -/
def Frame.onWire (f : Frame) : Bool := f.payload.length == Config.payloadLen

/-- The operand ranges of each row: the opcodes of R77, the offset classes of R79, the preambles of R72. -/
def Instr.wellFormed : Instr → Bool
  | .reset | .tick _ | .submit _ | .regRead _ | .regWrite _ _ => true
  | .nop _ _ | .crcInit _ _ | .crcByte _ _ | .start _ _ | .stop _ _ | .softReset _ _ | .discStart _ _ => true
  | .cmdReserved opc _ _ => 7 ≤ opc.toNat
  | .rdCmd | .rdStatus | .rdAddr | .rdCrcResult | .rdBucketTtl | .rdDiscTimeout => true
  | .rdLastSeq | .rdLastLen | .rdConfig => true
  | .rdLastData off => off.aligned && off.inWindow
  | .rdMisaligned off => !off.aligned
  | .rdReserved off => off.reserved
  | .wrCmd _ | .wrStatus _ | .wrAddr _ | .wrBucketTtl _ | .wrDiscTimeout _ => true
  | .wrCrcResult _ | .wrLastSeq _ | .wrLastLen _ | .wrConfig _ => true
  | .wrLastData off _ => off.aligned && off.inWindow
  | .wrMisaligned off _ => !off.aligned
  | .wrReserved off _ => off.reserved
  | .frameData f => f.onWire && f.preamble == Config.preData
  | .frameDiscReq f => f.onWire && f.preamble == Config.preDiscReq
  | .frameDiscRsp f => f.onWire && f.preamble == Config.preDiscRsp
  | .frameReserved f => f.onWire && f.preamble != Config.preData && f.preamble != Config.preDiscReq
      && f.preamble != Config.preDiscRsp

end Sys2Proof
end

