-- ==== Sys2Proof/Decode.lean ====
section
/-! DEFINITION. Bits and bytes of the four formats of spec/30_encoding.md: byte order, the frame layout, the decoder
(total on any transfer, rejecting by name), the encoder, the event a row stands for, and the host's table words. -/

namespace Sys2Proof

/-! ### Byte sequences (R13) -/

/-- `b[i]`; 0 past the end, as the LAST_DATA window reads (R52). -/
def byteAt (b : List Byte) (i : Nat) : Byte := b.getD i 0#8

/-- `zeros(n)`. -/
def zeros (n : Nat) : List Byte := List.replicate n 0#8

/-- `b[i ..< j]`, clipped at the end of `b`. -/
def slice (b : List Byte) (i j : Nat) : List Byte := (b.take j).drop i

/-- `le16(v)`. -/
def le16 (v : Half) : List Byte := [v.extractLsb' 0 8, v.extractLsb' 8 8]

/-- `le32(v)`. -/
def le32 (v : Word) : List Byte := [v.extractLsb' 0 8, v.extractLsb' 8 8, v.extractLsb' 16 8, v.extractLsb' 24 8]

/-- `LE16(b, i)`. -/
def getLe16 (b : List Byte) (i : Nat) : Half :=
  (byteAt b i).setWidth 16 ||| ((byteAt b (i + 1)).setWidth 16 <<< 8)

/-- `LE32(b, i)`. -/
def getLe32 (b : List Byte) (i : Nat) : Word :=
  (byteAt b i).setWidth 32 ||| ((byteAt b (i + 1)).setWidth 32 <<< 8)
    ||| ((byteAt b (i + 2)).setWidth 32 <<< 16) ||| ((byteAt b (i + 3)).setWidth 32 <<< 24)

/-- `ceil_div(a, b)`: the least `q` with `q * b >= a`. -/
def ceilDiv (a b : Nat) : Nat := (a + b - 1) / b

/-! ### Why a transfer is rejected -/

/-- The reasons a transfer is no event. `noEvent`: tags 0x5 to 0xF (R80, I22). `tagRange`: the tag has 4 bits (R80).
`empty`, `eventLength`, `cmdLength`, `regLength`: the operand bytes are not those of the format (R81).
`offsetRange`: an offset has 15 bits (R50). `frameLength`: the length error of R124. -/
inductive DecodeError where
  | empty
  | noEvent (tag : Byte)
  | tagRange (tag : Byte)
  | eventLength
  | offsetRange
  | cmdLength
  | regLength
  | frameLength
  deriving DecidableEq, Repr

/-! ### The frame layout (R70, R71) -/

/-- The bytes of a frame in declared order (R70), with the crc as stored in the record. -/
def Frame.toWire (f : Frame) : List Byte :=
  le16 f.preamble ++ [f.dest, f.src] ++ le32 f.frameId ++ [f.frameOrder, f.frameTotal] ++ f.payload ++ le32 f.crc

/-- `decode(b)` (R123): a length error unless 64 bytes, otherwise the fields at their offsets (R71). -/
def Frame.decode (b : List Byte) : Except DecodeError Frame :=
  if b.length ≠ Config.frameLen then .error .frameLength
  else .ok { preamble := getLe16 b 0, dest := byteAt b 2, src := byteAt b 3, frameId := getLe32 b 4,
             frameOrder := byteAt b 8, frameTotal := byteAt b 9, payload := slice b 10 60, crc := getLe32 b 60 }

/-- What an address names (R10, R73). The filter of R155 lets one kind through, the host's; the framer sends any (R26). -/
def addressKind (a : Byte) : AddressKind :=
  if a = Config.addrBcast then .broadcast
  else if a = Config.addrHost then .host
  else if Config.deviceFirst.toNat ≤ a.toNat ∧ a.toNat ≤ Config.deviceLast.toNat then .device
  else .unassigned

/-! ### The command word (R76) -/

/-- OPC, bits 7:0. -/
def cmdOpc (v : Word) : Byte := v.extractLsb' 0 8

/-- ARG, bits 15:8. -/
def cmdArg (v : Word) : Byte := v.extractLsb' 8 8

/-- The ignored bits 31:16. -/
def cmdHi (v : Word) : Half := v.extractLsb' 16 16

/-- The command word of an opcode, an argument byte and the ignored bits. -/
def cmdWord (opc arg : Byte) (hi : Half) : Word :=
  opc.setWidth 32 ||| (arg.setWidth 32 <<< 8) ||| (hi.setWidth 32 <<< 16)

/-- The command a word names (R77): bits 7:0 alone decide. -/
def decodeCmd (v : Word) : Instr :=
  if cmdOpc v = 0x00#8 then .nop (cmdArg v) (cmdHi v)
  else if cmdOpc v = 0x01#8 then .crcInit (cmdArg v) (cmdHi v)
  else if cmdOpc v = 0x02#8 then .crcByte (cmdArg v) (cmdHi v)
  else if cmdOpc v = 0x03#8 then .start (cmdArg v) (cmdHi v)
  else if cmdOpc v = 0x04#8 then .stop (cmdArg v) (cmdHi v)
  else if cmdOpc v = 0x05#8 then .softReset (cmdArg v) (cmdHi v)
  else if cmdOpc v = 0x06#8 then .discStart (cmdArg v) (cmdHi v)
  else .cmdReserved (cmdOpc v) (cmdArg v) (cmdHi v)

/-! ### The register access (R79) -/

/-- The 16-bit key `dir << 15 | off`; `dir` is 0 for a read and 1 for a write. -/
def regKey (dir : Bool) (off : Offset) : Half := ((BitVec.ofBool dir).setWidth 16 <<< 15) ||| off.setWidth 16

/-- The direction of a key, bit 15. -/
def keyDir (key : Half) : Bool := key.getLsbD 15

/-- The offset of a key, bits 14:0. -/
def keyOff (key : Half) : Offset := key.extractLsb' 0 15

/-- The row of a read (R79): misaligned, then the window, then the register at that exact offset, else reserved. -/
def decodeRead (off : Offset) : Instr :=
  if off.extractLsb' 0 2 ≠ 0#2 then .rdMisaligned off
  else if off.getLsbD 14 = true then .rdLastData off
  else if off = 0x0000#15 then .rdCmd
  else if off = 0x0004#15 then .rdStatus
  else if off = 0x0008#15 then .rdAddr
  else if off = 0x000C#15 then .rdCrcResult
  else if off = 0x0010#15 then .rdBucketTtl
  else if off = 0x0014#15 then .rdDiscTimeout
  else if off = 0x0018#15 then .rdLastSeq
  else if off = 0x001C#15 then .rdLastLen
  else if off = 0x0020#15 then .rdConfig
  else .rdReserved off

/-- The row of a write (R79). -/
def decodeWrite (off : Offset) (v : Word) : Instr :=
  if off.extractLsb' 0 2 ≠ 0#2 then .wrMisaligned off v
  else if off.getLsbD 14 = true then .wrLastData off v
  else if off = 0x0000#15 then .wrCmd v
  else if off = 0x0004#15 then .wrStatus v
  else if off = 0x0008#15 then .wrAddr v
  else if off = 0x000C#15 then .wrCrcResult v
  else if off = 0x0010#15 then .wrBucketTtl v
  else if off = 0x0014#15 then .wrDiscTimeout v
  else if off = 0x0018#15 then .wrLastSeq v
  else if off = 0x001C#15 then .wrLastLen v
  else if off = 0x0020#15 then .wrConfig v
  else .wrReserved off v

/-! ### The decoder -/

/-- An event transfer: the tag byte, then the operands (R80). The offset stands in two bytes, the data in four, low
byte first (entry 11). -/
def decodeEvent : List Byte → Except DecodeError Instr
  | [] => .error .empty
  | tag :: ops =>
    if tag = 0x0#8 then (if ops.length = 0 then .ok .reset else .error .eventLength)
    else if tag = 0x1#8 then .ok (.tick ops)
    else if tag = 0x2#8 then .ok (.submit ops)
    else if tag = 0x3#8 then
      if ops.length ≠ 2 then .error .eventLength
      else if keyDir (getLe16 ops 0) = true then .error .offsetRange
      else .ok (.regRead (keyOff (getLe16 ops 0)))
    else if tag = 0x4#8 then
      if ops.length ≠ 6 then .error .eventLength
      else if keyDir (getLe16 ops 0) = true then .error .offsetRange
      else .ok (.regWrite (keyOff (getLe16 ops 0)) (getLe32 ops 2))
    else if tag.toNat < 16 then .error (.noEvent tag)
    else .error (.tagRange tag)

/-- A register access transfer: the key, and on a write the data. -/
def decodeReg (b : List Byte) : Except DecodeError Instr :=
  if b.length = 2 then
    if keyDir (getLe16 b 0) = true then .error .regLength else .ok (decodeRead (keyOff (getLe16 b 0)))
  else if b.length = 6 then
    if keyDir (getLe16 b 0) = true then .ok (decodeWrite (keyOff (getLe16 b 0)) (getLe32 b 2)) else .error .regLength
  else .error .regLength

/-- The row of a frame, by its preamble (R72). -/
def frameRow (f : Frame) : Instr :=
  if f.preamble = Config.preData then .frameData f
  else if f.preamble = Config.preDiscReq then .frameDiscReq f
  else if f.preamble = Config.preDiscRsp then .frameDiscRsp f
  else .frameReserved f

/-- The instruction a transfer stands for, or why it stands for none. -/
def decode (t : Transfer) : Except DecodeError Instr :=
  match t.format with
  | .event => decodeEvent t.bytes
  | .cmd => if t.bytes.length = 4 then .ok (decodeCmd (getLe32 t.bytes 0)) else .error .cmdLength
  | .reg => decodeReg t.bytes
  | .frame => (Frame.decode t.bytes).map frameRow

/-! ### The encoder -/

/-- A command transfer. -/
def encodeCmd (opc arg : Byte) (hi : Half) : Transfer := ⟨.cmd, le32 (cmdWord opc arg hi)⟩

/-- A register read transfer. -/
def encodeRead (off : Offset) : Transfer := ⟨.reg, le16 (regKey false off)⟩

/-- A register write transfer. -/
def encodeWrite (off : Offset) (v : Word) : Transfer := ⟨.reg, le16 (regKey true off) ++ le32 v⟩

/-- The transfer of an instruction, from the tables of R70, R77, R79 and R80. -/
def encode : Instr → Transfer
  | .reset => ⟨.event, [0x0#8]⟩
  | .tick rx => ⟨.event, 0x1#8 :: rx⟩
  | .submit m => ⟨.event, 0x2#8 :: m⟩
  | .regRead off => ⟨.event, 0x3#8 :: le16 (regKey false off)⟩
  | .regWrite off v => ⟨.event, 0x4#8 :: (le16 (regKey false off) ++ le32 v)⟩
  | .nop arg hi => encodeCmd 0x00#8 arg hi
  | .crcInit arg hi => encodeCmd 0x01#8 arg hi
  | .crcByte arg hi => encodeCmd 0x02#8 arg hi
  | .start arg hi => encodeCmd 0x03#8 arg hi
  | .stop arg hi => encodeCmd 0x04#8 arg hi
  | .softReset arg hi => encodeCmd 0x05#8 arg hi
  | .discStart arg hi => encodeCmd 0x06#8 arg hi
  | .cmdReserved opc arg hi => encodeCmd opc arg hi
  | .rdCmd => encodeRead 0x0000#15
  | .rdStatus => encodeRead 0x0004#15
  | .rdAddr => encodeRead 0x0008#15
  | .rdCrcResult => encodeRead 0x000C#15
  | .rdBucketTtl => encodeRead 0x0010#15
  | .rdDiscTimeout => encodeRead 0x0014#15
  | .rdLastSeq => encodeRead 0x0018#15
  | .rdLastLen => encodeRead 0x001C#15
  | .rdConfig => encodeRead 0x0020#15
  | .rdLastData off => encodeRead off
  | .rdMisaligned off => encodeRead off
  | .rdReserved off => encodeRead off
  | .wrCmd v => encodeWrite 0x0000#15 v
  | .wrStatus v => encodeWrite 0x0004#15 v
  | .wrAddr v => encodeWrite 0x0008#15 v
  | .wrBucketTtl v => encodeWrite 0x0010#15 v
  | .wrDiscTimeout v => encodeWrite 0x0014#15 v
  | .wrCrcResult v => encodeWrite 0x000C#15 v
  | .wrLastSeq v => encodeWrite 0x0018#15 v
  | .wrLastLen v => encodeWrite 0x001C#15 v
  | .wrConfig v => encodeWrite 0x0020#15 v
  | .wrLastData off v => encodeWrite off v
  | .wrMisaligned off v => encodeWrite off v
  | .wrReserved off v => encodeWrite off v
  | .frameData f => ⟨.frame, f.toWire⟩
  | .frameDiscReq f => ⟨.frame, f.toWire⟩
  | .frameDiscRsp f => ⟨.frame, f.toWire⟩
  | .frameReserved f => ⟨.frame, f.toWire⟩

/-! ### The event a row is (R79, R80, R211, R72) -/

/-- Each row of the table is one of the five events of R80: a command is a write of its word to CMD, a register row is
the access of its offset, a frame arrives as the block of a TICK (entry 5). -/
def Instr.toEvent : Instr → Event
  | .reset => .reset
  | .tick rx => .tick rx
  | .submit m => .submit m
  | .regRead off => .regRead off
  | .regWrite off v => .regWrite off v
  | .nop arg hi => .regWrite 0x0000#15 (cmdWord 0x00#8 arg hi)
  | .crcInit arg hi => .regWrite 0x0000#15 (cmdWord 0x01#8 arg hi)
  | .crcByte arg hi => .regWrite 0x0000#15 (cmdWord 0x02#8 arg hi)
  | .start arg hi => .regWrite 0x0000#15 (cmdWord 0x03#8 arg hi)
  | .stop arg hi => .regWrite 0x0000#15 (cmdWord 0x04#8 arg hi)
  | .softReset arg hi => .regWrite 0x0000#15 (cmdWord 0x05#8 arg hi)
  | .discStart arg hi => .regWrite 0x0000#15 (cmdWord 0x06#8 arg hi)
  | .cmdReserved opc arg hi => .regWrite 0x0000#15 (cmdWord opc arg hi)
  | .rdCmd => .regRead 0x0000#15
  | .rdStatus => .regRead 0x0004#15
  | .rdAddr => .regRead 0x0008#15
  | .rdCrcResult => .regRead 0x000C#15
  | .rdBucketTtl => .regRead 0x0010#15
  | .rdDiscTimeout => .regRead 0x0014#15
  | .rdLastSeq => .regRead 0x0018#15
  | .rdLastLen => .regRead 0x001C#15
  | .rdConfig => .regRead 0x0020#15
  | .rdLastData off => .regRead off
  | .rdMisaligned off => .regRead off
  | .rdReserved off => .regRead off
  | .wrCmd v => .regWrite 0x0000#15 v
  | .wrStatus v => .regWrite 0x0004#15 v
  | .wrAddr v => .regWrite 0x0008#15 v
  | .wrBucketTtl v => .regWrite 0x0010#15 v
  | .wrDiscTimeout v => .regWrite 0x0014#15 v
  | .wrCrcResult v => .regWrite 0x000C#15 v
  | .wrLastSeq v => .regWrite 0x0018#15 v
  | .wrLastLen v => .regWrite 0x001C#15 v
  | .wrConfig v => .regWrite 0x0020#15 v
  | .wrLastData off v => .regWrite off v
  | .wrMisaligned off v => .regWrite off v
  | .wrReserved off v => .regWrite off v
  | .frameData f => .tick f.toWire
  | .frameDiscReq f => .tick f.toWire
  | .frameDiscRsp f => .tick f.toWire
  | .frameReserved f => .tick f.toWire

/-- The instruction of an event, in the EVENT format. -/
def Event.toInstr : Event → Instr
  | .reset => .reset
  | .tick rx => .tick rx
  | .submit m => .submit m
  | .regRead off => .regRead off
  | .regWrite off v => .regWrite off v

/-! ### The words of spec/opcode_table.json -/

/-- The low `n` bytes of a number, the lowest first. -/
def bytesOfNat (n w : Nat) : List Byte := (List.range n).map fun i => BitVec.ofNat 8 (w / 256 ^ i)

/-- The format of a table word. DESIGN CHOICE (entry 6): the table numbers its four formats from the same bit 0, so
words of one width overlap. A word of 8 bits is an event for the tags 0 to 4 and a command otherwise; one of 16 bits is a
frame for the preambles 1 to 3 and a register key otherwise; wider words are commands (32), register writes (48), events
(56) and frames. -/
def tableFormat (nbits w : Nat) : Format :=
  if nbits ≤ 8 then (if w < 5 then .event else .cmd)
  else if nbits ≤ 16 then (if 1 ≤ w ∧ w ≤ 3 then .frame else .reg)
  else if nbits ≤ 32 then .cmd
  else if nbits ≤ 48 then .reg
  else if nbits ≤ 56 then .event
  else .frame

/-- How many bytes a transfer of a format has, where its first bits are those of `w` (R81); the blocks of TICK and
SUBMIT are empty. -/
def tableLength (fmt : Format) (w : Nat) : Nat :=
  match fmt with
  | .event => if w % 256 = 3 then 3 else if w % 256 = 4 then 7 else 1
  | .cmd => 4
  | .reg => if w / 32768 % 2 = 1 then 6 else 2
  | .frame => 64

/-- The transfer of a table word: its bits, and zeros above them. -/
def tableTransfer (nbits w : Nat) : Transfer :=
  ⟨tableFormat nbits w, bytesOfNat (tableLength (tableFormat nbits w) w) w⟩

/-- The instruction the decoder reads from a table word. -/
def decodeTableWord (nbits w : Nat) : Option Instr :=
  match decode (tableTransfer nbits w) with
  | .ok i => some i
  | .error _ => none

end Sys2Proof
end

