-- ==== Sys2Proof/Machine/Crc.lean ====
section
/-! DEFINITION. CRC-32/ISO-HDLC (spec/40_crc.md R100 to R102). -/

namespace Sys2Proof.Machine

/-- The reflected polynomial (R100). -/
def crcPoly : Word := 0xEDB88320#32

/-- One bit of R101: shift right, and exclusive-or the polynomial where bit 0 was 1. -/
def crcBit (c : Word) : Word := if c.getLsbD 0 then (c >>> 1) ^^^ crcPoly else c >>> 1

/-- `n` bits of R101. -/
def crcBits : Nat → Word → Word
  | 0, c => c
  | n + 1, c => crcBits n (crcBit c)

/-- `crc_step(c, d)` (R101): one byte, least significant bit first. -/
def crcStep (c : Word) (d : Byte) : Word := crcBits 8 (c ^^^ d.setWidth 32)

/-- The register after a sequence of bytes. -/
def crcFeed (c : Word) : List Byte → Word
  | [] => c
  | d :: bs => crcFeed (crcStep c d) bs

/-- The register's initial value (R100). -/
def crcInitial : Word := 0xFFFFFFFF#32

/-- The final exclusive-or (R100). -/
def crcFinal (c : Word) : Word := c ^^^ 0xFFFFFFFF#32

/-- `crc32(bs)` (R102). -/
def crc32 (bs : List Byte) : Word := crcFinal (crcFeed crcInitial bs)

end Sys2Proof.Machine
end

