-- ==== Sys2Proof/Machine/State.lean ====
section
/-! DEFINITION. The state of one link engine (spec/10_state.md R22, R31), its ports as plain data (20_memory.md R63),
the reasons a step can stop, and the state right after RESET (R44). -/

namespace Sys2Proof.Machine

/-- `disc_state` (R29). -/
inductive DiscState where
  | idle
  | wait
  | ok
  | fail
  deriving DecidableEq, Repr

/-- A reassembly bucket: what a slot with `valid = 1` holds (R31). `frags` pairs each fragment number of `have` with
its payload, the numbers rising (entry 10); `have` and `frag[o]` are read from it. -/
structure Bucket where
  frameId : Word
  total   : Byte
  frags   : List (Nat × List Byte)
  age     : Word
  deriving DecidableEq, Repr

/-- A slot (R31): `none` is `valid = 0`. What a free slot's other fields hold is unspecified and never read (R44), so
a free slot has none (entry 9). -/
abbrev Slot := Option Bucket

/-- The status a SUBMIT returns (R180). -/
inductive SubmitStatus where
  | accept
  | full
  | oversize
  deriving DecidableEq, Repr

/-- What an event answers to the host: the value of a REG_READ (R200) or the status of a SUBMIT (R180). -/
inductive Reply where
  | value  (v : Word)
  | status (st : SubmitStatus)
  deriving DecidableEq, Repr

/-- One link engine and its ports. -/
structure State where
  /-- `P_NB`, `P_TXQ`, `P_MAXFRAG` (R7 to R9): fixed for an instance; no step changes them (R250). -/
  cfg         : Config.Params
  /-- `en` (R23). -/
  en          : Bool
  /-- `cmd_err` (R24). -/
  cmdErr      : Bool
  /-- `crc_reg` (R25). -/
  crcReg      : Word
  /-- `dst_addr` (R26). -/
  dstAddr     : Byte
  /-- `bucket_ttl` (R27). -/
  bucketTtl   : Word
  /-- `disc_timeout` (R28). -/
  discTimeout : Word
  /-- `disc_state` (R29). -/
  discState   : DiscState
  /-- `disc_pending` (R29). -/
  discPending : Bool
  /-- `disc_wait` (R29). -/
  discWait    : Word
  /-- `txq` (R30), the head first. -/
  txq         : List (List Byte)
  /-- `slot[0 .. P_NB-1]` (R31). -/
  slots       : List Slot
  /-- `last_msg` (R32). -/
  lastMsg     : List Byte
  /-- `last_seq` (R33). -/
  lastSeq     : Word
  /-- The `tx_raw` port (R63): every frame emitted, the oldest first. -/
  txRaw       : List (List Byte)
  /-- The `msg_rx` port (R63): every message emitted, the oldest first. -/
  msgRx       : List (List Byte)
  /-- The `rx_raw` port (R63): every non-empty block read, the oldest first (R141). -/
  rxRaw       : List (List Byte)
  /-- The answers of REG_READ and SUBMIT, the oldest first. -/
  replies     : List Reply
  /-- The `frame_id_rand` port (R63): the draws the environment has listed, the next first. -/
  frameIdRand : List Word
  /-- The model's own count of draws; it numbers the free values (entry 7). -/
  draws       : Nat
  /-- The events the environment offers, the next first (R80; entry 2). -/
  input       : List Transfer
  deriving DecidableEq, Repr

/-- The reasons the machine stops. -/
inductive Fault where
  /-- `ModelFault(ENC_OVERSIZE)` (R122, R233): the codec was given a payload over 50 bytes. Raised by `encode`; no event
  reaches it. Safe: the machine stops where the spec says the state is no behaviour of the block. -/
  | encOversize
  /-- Event tags 0x5 to 0xF (R80): "stuck: no such event exists" (I22). Raised by `step`. Safe. -/
  | noSuchEvent (tag : Byte)
  deriving DecidableEq, Repr

/-- The reasons an event has no meaning. -/
inductive Refusal where
  /-- An instruction without a meaning yet; raised by an arm of `exec`, and by none today. Safe. -/
  | notModelled (mnemonic : String)
  /-- The environment offered bytes that are no event of R80 (entry 4). Raised by `step`. Safe: nothing runs. -/
  | malformedTransfer (why : DecodeError)
  deriving DecidableEq, Repr

/-- The state right after RESET (R44), of an instance with the given parameters, with nothing yet on any port. -/
def State.resetOf (cfg : Config.Params) : State where
  cfg := cfg
  en := false
  cmdErr := false
  crcReg := 0xFFFFFFFF#32
  dstAddr := 0x00#8
  bucketTtl := 0#32
  discTimeout := 16#32
  discState := .idle
  discPending := false
  discWait := 0#32
  txq := []
  slots := List.replicate cfg.nb.toNat none
  lastMsg := []
  lastSeq := 0#32
  txRaw := []
  msgRx := []
  rxRaw := []
  replies := []
  frameIdRand := []
  draws := 0
  input := []

/-- The machine right after RESET (R44, R250). -/
def State.reset : State := State.resetOf Config.params

end Sys2Proof.Machine
end

