-- ==== Sys2Proof/Machine/Codec.lean ====
section
/-! DEFINITION. The frame codec (spec/41_codec.md): `encode` (R121) and `isValid` (R125). `decode` (R123) is
`Sys2Proof.Frame.decode`. -/

namespace Sys2Proof.Machine

/-- The 60 bytes the CRC covers (R121): the header, and the payload padded with zeros to 50 bytes (R75). -/
def frameBody (f : Frame) : List Byte :=
  le16 f.preamble ++ [f.dest, f.src] ++ le32 f.frameId ++ [f.frameOrder, f.frameTotal]
    ++ f.payload ++ zeros (Config.payloadLen - f.payload.length)

/-- `encode(f)` (R121). `f.crc` is not read. A payload over 50 bytes is `ModelFault(ENC_OVERSIZE)` (R122). -/
def encodeFrame (f : Frame) : Except Fault (List Byte) :=
  if f.payload.length > Config.payloadLen then .error .encOversize
  else .ok (frameBody f ++ le32 (crc32 (frameBody f)))

/-- `isValid(f)` (R125): the CRC of the frame's own encoding, bytes 0 to 59, against the stored one. A fault of
`encode` is passed on, not turned into a verdict (R233; entry 12). -/
def isValid (f : Frame) : Except Fault Bool :=
  match encodeFrame f with
  | .error e => .error e
  | .ok bs => .ok (crc32 (slice bs 0 Config.crcSpan) == f.crc)

/-- The encodings of a list of frames, in order; the first fault ends it. -/
def encodeAll : List Frame → Except Fault (List (List Byte))
  | [] => .ok []
  | f :: fs =>
    match encodeFrame f with
    | .error e => .error e
    | .ok bs =>
      match encodeAll fs with
      | .error e => .error e
      | .ok rest => .ok (bs :: rest)

end Sys2Proof.Machine
end

