-- ==== Sys2Proof/Machine/Ops.lean ====
section
/-! DEFINITION. The named operations over State: the ports (spec/20_memory.md R63, 00_scope.md R14), the fields, the
slots. The block takes no exception (60_exceptions.md R230, R236), so there is no entry and no return here. -/

namespace Sys2Proof.Machine

/-! ### Ports -/

/-- The event answers the host. -/
def State.answer (s : State) (r : Reply) : State := { s with replies := s.replies ++ [r] }

/-- `emit_tx` (R14), for frames in order. -/
def State.emitTx (s : State) (frames : List (List Byte)) : State := { s with txRaw := s.txRaw ++ frames }

/-- A running TICK reads its block from `rx_raw`; `[]` means nothing was read (R63, R140). -/
def State.takeRx (s : State) (rx : List Byte) : State :=
  { s with rxRaw := if rx = [] then s.rxRaw else s.rxRaw ++ [rx] }

/-- The value the next draw gives: the port's next value, or the free value where none is listed (R192, entry 7).
DESIGN CHOICE (entry 23): one constant serves every instance, so two instances with no listed draws and the same count
take the same value; R240 leaves how their ports relate open. Listed draws are each instance's own. -/
def State.nextId (s : State) : Word :=
  match s.frameIdRand with
  | [] => Config.freeFrameId s.draws
  | id :: _ => id

/-- The state after a draw. -/
def State.drawn (s : State) : State := { s with frameIdRand := s.frameIdRand.tail, draws := s.draws + 1 }

/-- The event at the head of the input is taken. -/
def State.popInput (s : State) : State := { s with input := s.input.tail }

/-! ### Fields -/

/-- `en <- b` (R23). -/
def State.setEn (s : State) (b : Bool) : State := { s with en := b }

/-- `crc_reg <- c` (R25). -/
def State.setCrcReg (s : State) (c : Word) : State := { s with crcReg := c }

/-- `dst_addr <- a` (R26). -/
def State.setDstAddr (s : State) (a : Byte) : State := { s with dstAddr := a }

/-- `bucket_ttl <- v` (R27). -/
def State.setBucketTtl (s : State) (v : Word) : State := { s with bucketTtl := v }

/-- `disc_timeout <- v` (R28). -/
def State.setDiscTimeout (s : State) (v : Word) : State := { s with discTimeout := v }

/-- `disc_state <- d` (R29). -/
def State.setDiscState (s : State) (d : DiscState) : State := { s with discState := d }

/-- `disc_pending <- p; disc_wait <- w` (R29). -/
def State.setDiscRequest (s : State) (p : Bool) (w : Word) : State := { s with discPending := p, discWait := w }

/-- `txq <- q` (R30). -/
def State.setTxq (s : State) (q : List (List Byte)) : State := { s with txq := q }

/-! ### Slots -/

/-- The whole slot array is replaced (R31). -/
def State.setSlots (s : State) (slots : List Slot) : State := { s with slots := slots }

/-- `slot[k] <- v`. -/
def State.setSlot (s : State) (k : Nat) (v : Slot) : State := s.setSlots (s.slots.set k v)

/-- The slots with a bucket: `count{k : slot[k].valid = 1}` (R34, R202). -/
def State.bucketsUsed (s : State) : Nat := (s.slots.filter Option.isSome).length

/-- The valid slot with a `frame_id`, and its bucket (R158). -/
def lookupSlot (id : Word) : List Slot → Option (Nat × Bucket)
  | [] => none
  | none :: rest => (lookupSlot id rest).map fun p => (p.1 + 1, p.2)
  | some b :: rest => if b.frameId = id then some (0, b) else (lookupSlot id rest).map fun p => (p.1 + 1, p.2)

/-- The lowest `k` with `slot[k].valid = 0` (R159). -/
def freeSlot : List Slot → Option Nat
  | [] => none
  | none :: _ => some 0
  | some _ :: rest => (freeSlot rest).map (· + 1)

/-- Every valid slot with a `frame_id` is freed (R157). -/
def freeById (id : Word) (slots : List Slot) : List Slot :=
  slots.map fun o =>
    match o with
    | none => none
    | some b => if b.frameId = id then none else some b

/-! ### Buckets (R31) -/

/-- `have`: the fragment numbers held. -/
def Bucket.held (b : Bucket) : List Nat := b.frags.map Prod.fst

/-- `frag[o]`; empty where `o` is not in `have`, which no rule reads. -/
def Bucket.frag (b : Bucket) (o : Nat) : List Byte := (b.frags.lookup o).getD []

/-- A fragment put in its place among those held, the numbers rising (entry 10). -/
def insertFrag (o : Nat) (p : List Byte) : List (Nat × List Byte) → List (Nat × List Byte)
  | [] => [(o, p)]
  | (k, q) :: rest =>
    if o < k then (o, p) :: (k, q) :: rest
    else if o = k then (o, p) :: rest
    else (k, q) :: insertFrag o p rest

/-- `frag[o] <- p; have <- have + {o}` (R163). The age is not reset. -/
def Bucket.store (b : Bucket) (o : Nat) (p : List Byte) : Bucket := { b with frags := insertFrag o p b.frags }

/-- `{1 .. total}`. -/
def Bucket.numbers (b : Bucket) : List Nat := List.range' 1 b.total.toNat

/-- `have = {1 .. total}` (R164). -/
def Bucket.complete (b : Bucket) : Bool := b.held == b.numbers

/-- `frag[1] ++ frag[2] ++ ... ++ frag[total]` (R164). -/
def Bucket.message (b : Bucket) : List Byte := b.numbers.flatMap b.frag

/-! ### Dispatch (R165) and the resets -/

/-- `dispatch(m)` (R165). -/
def State.dispatch (s : State) (m : List Byte) : State :=
  { s with lastMsg := m, lastSeq := s.lastSeq + 1#32, msgRx := s.msgRx ++ [m] }

/-- RESET (R250): every state field takes its reset value of R44. The parameters do not change, frames and messages
already emitted stay emitted, and what the environment has listed at the input ports is not the block's (entry 8). -/
def State.hardReset (s : State) : State :=
  { State.resetOf s.cfg with
    txRaw := s.txRaw, msgRx := s.msgRx, rxRaw := s.rxRaw, replies := s.replies,
    frameIdRand := s.frameIdRand, draws := s.draws, input := s.input }

/-- SOFT_RESET (R215): the per-connection state; `en`, `crc_reg`, `dst_addr`, `bucket_ttl` and `disc_timeout` stay. -/
def State.softReset (s : State) : State :=
  { s with
    txq := [], slots := s.slots.map fun _ => none, lastMsg := [], lastSeq := 0#32,
    discState := .idle, discPending := false, discWait := 0#32, cmdErr := false }

/-- DISC_START (R216). -/
def State.discStart (s : State) : State := (s.setDiscState .wait).setDiscRequest true 0#32

/-- A saturating count (R11): `min(w + 1, 0xFFFFFFFF)`. -/
def satSucc (w : Word) : Word := BitVec.ofNat 32 (min (w.toNat + 1) 0xFFFFFFFF)

end Sys2Proof.Machine
end

