-- ==== Sys2Proof/Machine/Flags.lean ====
section
/-! DEFINITION. The flags a host reads and clears (spec/10_state.md R34, R43; 45_control.md R202, R203, R217). The
block has no condition codes (R43). -/

namespace Sys2Proof.Machine

/-- `code(disc_state)` (R29): IDLE 0, WAIT 1, OK 2, FAIL 3. -/
def DiscState.code : DiscState → Word
  | .idle => 0#32
  | .wait => 1#32
  | .ok => 2#32
  | .fail => 3#32

/-- `zext_32` of a flag. -/
def flagWord (b : Bool) : Word := (BitVec.ofBool b).setWidth 32

/-- `status_word()` (R202). -/
def statusWord (s : State) : Word :=
  flagWord s.en
    ||| (flagWord s.cmdErr <<< 1)
    ||| (s.discState.code <<< 2)
    ||| (flagWord s.discPending <<< 4)
    ||| (BitVec.ofNat 32 s.bucketsUsed <<< 8)
    ||| (BitVec.ofNat 32 s.txq.length <<< 16)

/-- `cmd_err <- b` (R24). -/
def State.setCmdErr (s : State) (b : Bool) : State := { s with cmdErr := b }

/-- A write of STATUS (R203): bit 1 is W1C; every other bit is ignored. -/
def writeStatus (v : Word) (s : State) : State := if v.getLsbD 1 then s.setCmdErr false else s

end Sys2Proof.Machine
end

