-- ==== Sys2Proof/Machine/Operands.lean ====
section
/-! DEFINITION. The operand forms: what each register offset reads and writes (spec/20_memory.md R51 to R55,
45_control.md R200, R201), the command word (R211), and the slices of a message (44_framer.md R186). -/

namespace Sys2Proof.Machine

/-! ### Register reads (R200) -/

/-- The CONFIG register (R40). -/
def configWord (p : Config.Params) : Word :=
  p.nb.setWidth 32 ||| (p.maxFrag.setWidth 32 <<< 8) ||| (p.txqMax.setWidth 32 <<< 16)

/-- The LAST_DATA word at a byte index (R52): little-endian, `0x00` past the end of the message. -/
def lastDataWord (m : List Byte) (i : Nat) : Word := getLe32 m i

/-- `REG_READ(off)` (R200): the value; no state changes. -/
def readReg (off : Offset) (s : State) : Word :=
  if off.extractLsb' 0 2 ≠ 0#2 then 0x00000000#32
  else if off = 0x0000#15 then 0x00000000#32
  else if off = 0x0004#15 then statusWord s
  else if off = 0x0008#15 then s.dstAddr.setWidth 32
  else if off = 0x000C#15 then crcFinal s.crcReg
  else if off = 0x0010#15 then s.bucketTtl
  else if off = 0x0014#15 then s.discTimeout
  else if off = 0x0018#15 then s.lastSeq
  else if off = 0x001C#15 then BitVec.ofNat 32 s.lastMsg.length
  else if off = 0x0020#15 then configWord s.cfg
  else if 0x4000 ≤ off.toNat ∧ off.toNat ≤ 0x7FFC then lastDataWord s.lastMsg (off.toNat - 0x4000)
  else 0x00000000#32

/-! ### Commands (R211) -/

/-- `command(v)` (R211): bits 7:0 name the command, bits 15:8 are the byte of CRC_BYTE, bits 31:16 are ignored. -/
def command (v : Word) (s : State) : State :=
  if cmdOpc v = 0x00#8 then s
  else if cmdOpc v = 0x01#8 then s.setCrcReg crcInitial
  else if cmdOpc v = 0x02#8 then s.setCrcReg (crcStep s.crcReg (cmdArg v))
  else if cmdOpc v = 0x03#8 then s.setEn true
  else if cmdOpc v = 0x04#8 then s.setEn false
  else if cmdOpc v = 0x05#8 then s.softReset
  else if cmdOpc v = 0x06#8 then s.discStart
  else s.setCmdErr true

/-! ### Register writes (R201) -/

/-- `REG_WRITE(off, v)` (R201). -/
def writeReg (off : Offset) (v : Word) (s : State) : State :=
  if off.extractLsb' 0 2 ≠ 0#2 then s
  else if off = 0x0000#15 then command v s
  else if off = 0x0004#15 then writeStatus v s
  else if off = 0x0008#15 then s.setDstAddr (v.extractLsb' 0 8)
  else if off = 0x0010#15 then s.setBucketTtl v
  else if off = 0x0014#15 then s.setDiscTimeout v
  else s

/-! ### Slices of a message (R186) -/

/-- `N = ceil_div(L, 50)` (R186). -/
def fragmentCount (m : List Byte) : Nat := ceilDiv m.length Config.payloadLen

/-- The i-th slice: `m[50*i ..< min(50*i + 50, L)]` (R186). -/
def messageSlice (m : List Byte) (i : Nat) : List Byte :=
  slice m (Config.payloadLen * i) (min (Config.payloadLen * i + Config.payloadLen) m.length)

/-- The i-th frame of a message (R186, R187), i from 0. -/
def fragment (dst : Byte) (id : Word) (m : List Byte) (i : Nat) : Frame where
  preamble := Config.preData
  dest := dst
  src := Config.addrHost
  frameId := id
  frameOrder := BitVec.ofNat 8 (i + 1)
  frameTotal := BitVec.ofNat 8 (fragmentCount m)
  payload := messageSlice m i
  crc := 0#32

/-- The fragment set of a message, `frameOrder` 1 to N (R186, R189). -/
def fragments (dst : Byte) (id : Word) (m : List Byte) : List Frame :=
  (List.range (fragmentCount m)).map (fragment dst id m)

/-- `disc_request(id)` (R190). -/
def discRequest (dst : Byte) (id : Word) : Frame where
  preamble := Config.preDiscReq
  dest := dst
  src := Config.addrHost
  frameId := id
  frameOrder := 1#8
  frameTotal := 1#8
  payload := []
  crc := 0#32

end Sys2Proof.Machine
end

