-- ==== Sys2Proof/Machine/Commands.lean ====
section
/-! DEFINITION. The meanings of the CMD rows (spec/30_encoding.md R77): a write of the word to CMD (entry 5). -/

namespace Sys2Proof.Machine

/-- NOP (R212): no effect. -/
def execNop (_arg : Byte) (_hi : Half) (s : State) : Host.Outcome State Fault Refusal := .next s

/-- CRC_INIT (R104). -/
def execCrcInit (_arg : Byte) (_hi : Half) (s : State) : Host.Outcome State Fault Refusal := .next (s.setCrcReg crcInitial)

/-- CRC_BYTE (R105): ARG is the byte. -/
def execCrcByte (arg : Byte) (_hi : Half) (s : State) : Host.Outcome State Fault Refusal := .next (s.setCrcReg (crcStep s.crcReg arg))

/-- START (R213). -/
def execStart (_arg : Byte) (_hi : Half) (s : State) : Host.Outcome State Fault Refusal := .next (s.setEn true)

/-- STOP (R214). -/
def execStop (_arg : Byte) (_hi : Half) (s : State) : Host.Outcome State Fault Refusal := .next (s.setEn false)

/-- SOFT_RESET (R215). -/
def execSoftReset (_arg : Byte) (_hi : Half) (s : State) : Host.Outcome State Fault Refusal := .next s.softReset

/-- DISC_START (R216). -/
def execDiscStart (_arg : Byte) (_hi : Half) (s : State) : Host.Outcome State Fault Refusal := .next s.discStart

/-- A reserved opcode (R217): `cmd_err` is set, nothing else changes. -/
def execCmdReserved (_opc _arg : Byte) (_hi : Half) (s : State) : Host.Outcome State Fault Refusal :=
  .next (s.setCmdErr true)

end Sys2Proof.Machine
end

