-- ==== Sys2Proof/Machine/Discovery.lean ====
section
/-! DEFINITION. The discovery check of a TICK (spec/43_deframer.md R167 to R169). -/

namespace Sys2Proof.Machine

/-- An empty tick with a request outstanding (R168). -/
def discTimeoutTick (s : State) : State :=
  if (satSucc s.discWait).toNat ≥ s.discTimeout.toNat
  then (s.setDiscRequest s.discPending (satSucc s.discWait)).setDiscState .fail
  else s.setDiscRequest s.discPending (satSucc s.discWait)

/-- The block is a compatible reply (R167): 64 bytes, a valid CRC, preamble 0x0003. -/
def goodReply (rx : List Byte) : Except Fault Bool :=
  match Frame.decode rx with
  | .error _ => .ok false
  | .ok f =>
    match isValid f with
    | .error e => .error e
    | .ok v => .ok (v && f.preamble == Config.preDiscRsp)

/-- A request has been emitted and not yet judged (R167). -/
def State.discOutstanding (s : State) : Bool := s.discState == .wait && !s.discPending

/-- `disc_observe(rx)` (R167). -/
def discObserve (rx : List Byte) (s : State) : Except Fault State :=
  if s.discOutstanding then
    if rx = [] then .ok (discTimeoutTick s)
    else
      match goodReply rx with
      | .error e => .error e
      | .ok true => .ok (s.setDiscState .ok)
      | .ok false => .ok (s.setDiscState .fail)
  else .ok s

end Sys2Proof.Machine
end

