-- ==== Sys2Proof/Machine/Framer.lean ====
section
/-! DEFINITION. Submitting messages and the outgoing phase of a TICK (spec/44_framer.md). -/

namespace Sys2Proof.Machine

/-- The status of `SUBMIT(m)` (R180): oversize first (R181), then full (R182). -/
def submitStatus (m : List Byte) (s : State) : SubmitStatus :=
  if m.length > Config.maxMsg then .oversize
  else if s.txq.length = s.cfg.txqMax.toNat then .full
  else .accept

/-- `SUBMIT(m)` (R180, R183): the message is appended when accepted; `en` is not read (R191). -/
def submit (m : List Byte) (s : State) : State :=
  match submitStatus m s with
  | .accept => s.setTxq (s.txq ++ [m])
  | .full => s
  | .oversize => s

/-- `send_message(m)` (R186): one draw, and the fragments on `tx_raw` in order. -/
def sendMessage (m : List Byte) (s : State) : Except Fault State :=
  match encodeAll (fragments s.dstAddr s.nextId m) with
  | .error e => .error e
  | .ok frames => .ok (s.drawn.emitTx frames)

/-- The pending discovery request goes out (R184, R190). -/
def sendRequest (s : State) : Except Fault State :=
  if s.discPending then
    match encodeFrame (discRequest s.dstAddr s.nextId) with
    | .error e => .error e
    | .ok bs => .ok ((s.drawn.emitTx [bs]).setDiscRequest false 0#32)
  else .ok s

/-- At most one message leaves the queue (R185). -/
def sendHead (s : State) : Except Fault State :=
  match s.txq with
  | [] => .ok s
  | m :: rest => sendMessage m (s.setTxq rest)

/-- `outgoing()` (R184). -/
def outgoing (s : State) : Except Fault State :=
  match sendRequest s with
  | .error e => .error e
  | .ok s' => sendHead s'

end Sys2Proof.Machine
end

