-- ==== Sys2Proof/Machine/Reassembly.lean ====
section
/-! DEFINITION. The data path of a TICK: the checks and filters of spec/43_deframer.md R151 to R156 and the
reassembly buffer arbiter of R157 to R165. -/

namespace Sys2Proof.Machine

/-- The outcomes of the data path (R150), "named for the reader and for tests only": no register or port shows one. -/
inductive Verdict where
  | none
  | length
  | crc
  | preamble
  | dest
  | range
  | single
  | overflow
  | totalMismatch
  | duplicate
  | stored
  | completed
  deriving DecidableEq, Repr

/-- "Every verdict but SINGLE, STORED and COMPLETED is a drop" (R150). -/
def Verdict.isDrop : Verdict → Bool
  | .single | .stored | .completed => false
  | .none | .length | .crc | .preamble | .dest | .range | .overflow | .totalMismatch | .duplicate => true

/-- The fragment of `f` goes to bucket `b` of slot `k` (R162 to R164). -/
def storeFragment (k : Nat) (b : Bucket) (f : Frame) (s : State) : Verdict × State :=
  if f.frameOrder.toNat ∈ b.held then (.duplicate, s)
  else if (b.store f.frameOrder.toNat f.payload).complete then
    (.completed, (s.setSlot k none).dispatch (b.store f.frameOrder.toNat f.payload).message)
  else (.stored, s.setSlot k (some (b.store f.frameOrder.toNat f.payload)))

/-- The bucket a first fragment creates (R159). -/
def newBucket (f : Frame) : Bucket := { frameId := f.frameId, total := f.frameTotal, frags := [], age := 0#32 }

/-- The single-fragment fast path (R157): every bucket of the same `frameId` is freed and the payload dispatched. -/
def singleFragment (f : Frame) (s : State) : State :=
  (s.setSlots (freeById f.frameId s.slots)).dispatch f.payload

/-- A fragment of a set of two or more: lookup (R158), allocation (R159), overflow (R160), total mismatch (R161). -/
def multiFragment (f : Frame) (s : State) : Verdict × State :=
  match lookupSlot f.frameId s.slots with
  | some (k, b) => if b.total ≠ f.frameTotal then (.totalMismatch, s) else storeFragment k b f s
  | none =>
    match freeSlot s.slots with
    | none => (.overflow, s)
    | some k => storeFragment k (newBucket f) f s

/-- The fragment range check fails (R156). -/
def outOfRange (f : Frame) (s : State) : Bool :=
  f.frameTotal == 0#8 || f.frameOrder == 0#8 || decide (f.frameOrder.toNat > f.frameTotal.toNat)
    || decide (f.frameTotal.toNat > s.cfg.maxFrag.toNat)

/-- A frame with a good CRC: preamble filter (R154), destination filter (R155), range check (R156), then the arbiter. -/
def filterFrame (f : Frame) (s : State) : Verdict × State :=
  if f.preamble ≠ Config.preData then (.preamble, s)
  else if f.dest ≠ Config.addrHost then (.dest, s)
  else if outOfRange f s then (.range, s)
  else if f.frameTotal = 1#8 then (.single, singleFragment f s)
  else multiFragment f s

/-- `deframe(rx)` (R150): the verdict and the state after. -/
def deframe (rx : List Byte) (s : State) : Except Fault (Verdict × State) :=
  if rx = [] then .ok (.none, s)
  else
    match Frame.decode rx with
    | .error _ => .ok (.length, s)
    | .ok f =>
      match isValid f with
      | .error e => .error e
      | .ok false => .ok (.crc, s)
      | .ok true => .ok (filterFrame f s)

end Sys2Proof.Machine
end

