-- ==== Sys2Proof/Machine/Tick.lean ====
section
/-! DEFINITION. The TICK (spec/42_tick.md R140 to R143). -/

namespace Sys2Proof.Machine

/-- One slot of `age_buckets()` (R143). -/
def ageSlot (ttl : Word) : Slot → Slot
  | none => none
  | some b =>
    if ttl ≠ 0#32 ∧ (satSucc b.age).toNat ≥ ttl.toNat then none
    else some { b with age := satSucc b.age }

/-- `age_buckets()` (R143). -/
def ageBuckets (s : State) : State := s.setSlots (s.slots.map (ageSlot s.bucketTtl))

/-- The incoming phase (R142): the discovery check and the data path read the same block. -/
def incoming (rx : List Byte) (s : State) : Except Fault State :=
  match discObserve rx s with
  | .error e => .error e
  | .ok s' =>
    match deframe rx s' with
    | .error e => .error e
    | .ok (_, s'') => .ok s''

/-- A TICK while `en = 1` (R140): ageing, incoming, outgoing. -/
def runTick (rx : List Byte) (s : State) : Except Fault State :=
  match incoming rx (ageBuckets (s.takeRx rx)) with
  | .error e => .error e
  | .ok s' => outgoing s'

/-- `TICK(rx)` (R140, R141). -/
def tick (rx : List Byte) (s : State) : Except Fault State := if s.en then runTick rx s else .ok s

/-- The outcome of a computation that may end in a model fault. -/
def outcome : Except Fault State → Host.Outcome State Fault Refusal
  | .ok s => .next s
  | .error e => .fault e

end Sys2Proof.Machine
end

