-- ==== Sys2Proof/Machine/Events.lean ====
section
/-! DEFINITION. The meanings of the EVENT rows (spec/30_encoding.md R80), and how a transfer that is no event
stops the machine. -/

namespace Sys2Proof.Machine

/-- RESET (R250). -/
def execReset (s : State) : Host.Outcome State Fault Refusal := .next s.hardReset

/-- TICK (R140). -/
def execTick (rx : List Byte) (s : State) : Host.Outcome State Fault Refusal := outcome (tick rx s)

/-- SUBMIT (R180): the event answers its status. -/
def execSubmit (m : List Byte) (s : State) : Host.Outcome State Fault Refusal :=
  .next ((submit m s).answer (.status (submitStatus m s)))

/-- REG_READ (R200): the event answers the value; no state changes. -/
def execRegRead (off : Offset) (s : State) : Host.Outcome State Fault Refusal :=
  .next (s.answer (.value (readReg off s)))

/-- REG_WRITE (R201). -/
def execRegWrite (off : Offset) (v : Word) (s : State) : Host.Outcome State Fault Refusal := .next (writeReg off v s)

/-- How a transfer that is no event stops the machine: tags 0x5 to 0xF are stuck (I22), anything else is malformed
(entry 4). -/
def rejectTransfer : DecodeError → Host.Outcome State Fault Refusal
  | .noEvent tag => .fault (.noSuchEvent tag)
  | .empty => .refused (.malformedTransfer .empty)
  | .tagRange tag => .refused (.malformedTransfer (.tagRange tag))
  | .eventLength => .refused (.malformedTransfer .eventLength)
  | .offsetRange => .refused (.malformedTransfer .offsetRange)
  | .cmdLength => .refused (.malformedTransfer .cmdLength)
  | .regLength => .refused (.malformedTransfer .regLength)
  | .frameLength => .refused (.malformedTransfer .frameLength)

end Sys2Proof.Machine
end

