-- ==== Sys2Proof/Machine/Frames.lean ====
section
/-! DEFINITION. The meanings of the FRAME rows (spec/30_encoding.md R72): the frame is the block of a TICK (entry 5). -/

namespace Sys2Proof.Machine

/-- FRAME_DATA: the block goes through the data path (R150), and a judged discovery fails (R169). -/
def execFrameData (f : Frame) (s : State) : Host.Outcome State Fault Refusal := outcome (tick f.toWire s)

/-- FRAME_DISC_REQ received: dropped by the preamble filter (R154). The request the framer sends is R190. -/
def execFrameDiscReq (f : Frame) (s : State) : Host.Outcome State Fault Refusal := outcome (tick f.toWire s)

/-- FRAME_DISC_RSP: judged by the discovery check (R167), then dropped by the data path (R154). -/
def execFrameDiscRsp (f : Frame) (s : State) : Host.Outcome State Fault Refusal := outcome (tick f.toWire s)

/-- A reserved preamble: dropped (R154); a discovery FAIL if judged (R72). -/
def execFrameReserved (f : Frame) (s : State) : Host.Outcome State Fault Refusal := outcome (tick f.toWire s)

end Sys2Proof.Machine
end

