-- ==== Sys2Proof/Machine/Reads.lean ====
section
/-! DEFINITION. The meanings of the REG read rows (spec/30_encoding.md R79, 45_control.md R200). No read changes state (R58); the value is answered on the host port. -/

namespace Sys2Proof.Machine

/-- CMD is write-only (R41): reads 0. -/
def execRdCmd (s : State) : Host.Outcome State Fault Refusal := .next (s.answer (.value 0x00000000#32))

/-- STATUS (R202). -/
def execRdStatus (s : State) : Host.Outcome State Fault Refusal := .next (s.answer (.value (statusWord s)))

/-- ADDR (R35). -/
def execRdAddr (s : State) : Host.Outcome State Fault Refusal := .next (s.answer (.value (s.dstAddr.setWidth 32)))

/-- CRC_RESULT (R106). -/
def execRdCrcResult (s : State) : Host.Outcome State Fault Refusal := .next (s.answer (.value (crcFinal s.crcReg)))

/-- BUCKET_TTL (R37). -/
def execRdBucketTtl (s : State) : Host.Outcome State Fault Refusal := .next (s.answer (.value s.bucketTtl))

/-- DISC_TIMEOUT (R38). -/
def execRdDiscTimeout (s : State) : Host.Outcome State Fault Refusal := .next (s.answer (.value s.discTimeout))

/-- LAST_SEQ (R39). -/
def execRdLastSeq (s : State) : Host.Outcome State Fault Refusal := .next (s.answer (.value s.lastSeq))

/-- LAST_LEN (R39). -/
def execRdLastLen (s : State) : Host.Outcome State Fault Refusal := .next (s.answer (.value (BitVec.ofNat 32 s.lastMsg.length)))

/-- CONFIG (R40). -/
def execRdConfig (s : State) : Host.Outcome State Fault Refusal := .next (s.answer (.value (configWord s.cfg)))

/-- The LAST_DATA window (R52). -/
def execRdLastData (off : Offset) (s : State) : Host.Outcome State Fault Refusal :=
  .next (s.answer (.value (lastDataWord s.lastMsg (off.toNat - 0x4000))))

/-- A misaligned read returns 0 (R54). -/
def execRdMisaligned (_off : Offset) (s : State) : Host.Outcome State Fault Refusal :=
  .next (s.answer (.value 0x00000000#32))

/-- A read of a reserved offset returns 0 (R53). -/
def execRdReserved (_off : Offset) (s : State) : Host.Outcome State Fault Refusal :=
  .next (s.answer (.value 0x00000000#32))

end Sys2Proof.Machine
end

