-- ==== Sys2Proof/Machine/Writes.lean ====
section
/-! DEFINITION. The meanings of the REG write rows (spec/30_encoding.md R79, 45_control.md R201). -/

namespace Sys2Proof.Machine

/-- CMD (R211): the command its low byte names. -/
def execWrCmd (v : Word) (s : State) : Host.Outcome State Fault Refusal := .next (command v s)

/-- STATUS (R203): bit 1 is W1C. -/
def execWrStatus (v : Word) (s : State) : Host.Outcome State Fault Refusal := .next (writeStatus v s)

/-- ADDR (R204): bits 7:0. -/
def execWrAddr (v : Word) (s : State) : Host.Outcome State Fault Refusal := .next (s.setDstAddr (v.extractLsb' 0 8))

/-- BUCKET_TTL (R206). -/
def execWrBucketTtl (v : Word) (s : State) : Host.Outcome State Fault Refusal := .next (s.setBucketTtl v)

/-- DISC_TIMEOUT (R207). -/
def execWrDiscTimeout (v : Word) (s : State) : Host.Outcome State Fault Refusal := .next (s.setDiscTimeout v)

/-- CRC_RESULT is read-only: the write is ignored (R55). -/
def execWrCrcResult (_v : Word) (s : State) : Host.Outcome State Fault Refusal := .next s

/-- LAST_SEQ is read-only: the write is ignored (R55). -/
def execWrLastSeq (_v : Word) (s : State) : Host.Outcome State Fault Refusal := .next s

/-- LAST_LEN is read-only: the write is ignored (R55). -/
def execWrLastLen (_v : Word) (s : State) : Host.Outcome State Fault Refusal := .next s

/-- CONFIG is read-only: the write is ignored (R55). -/
def execWrConfig (_v : Word) (s : State) : Host.Outcome State Fault Refusal := .next s

/-- A write to the LAST_DATA window is ignored (R52, R55). -/
def execWrLastData (_off : Offset) (_v : Word) (s : State) : Host.Outcome State Fault Refusal := .next s

/-- A misaligned write changes nothing and issues no command (R54). -/
def execWrMisaligned (_off : Offset) (_v : Word) (s : State) : Host.Outcome State Fault Refusal := .next s

/-- A write to a reserved offset has no effect (R53). -/
def execWrReserved (_off : Offset) (_v : Word) (s : State) : Host.Outcome State Fault Refusal := .next s

end Sys2Proof.Machine
end

