-- ==== Sys2Proof/Machine/Dispatch.lean ====
section
/-! DEFINITION. One arm per constructor of Instr: the meaning it calls. -/

namespace Sys2Proof.Machine

def exec (i : Instr) (s : State) : Host.Outcome State Fault Refusal :=
  match i with
  | .reset => Sys2Proof.Machine.execReset s
  | .tick rx => Sys2Proof.Machine.execTick rx s
  | .submit m => Sys2Proof.Machine.execSubmit m s
  | .regRead off => Sys2Proof.Machine.execRegRead off s
  | .regWrite off v => Sys2Proof.Machine.execRegWrite off v s
  | .nop arg hi => Sys2Proof.Machine.execNop arg hi s
  | .crcInit arg hi => Sys2Proof.Machine.execCrcInit arg hi s
  | .crcByte arg hi => Sys2Proof.Machine.execCrcByte arg hi s
  | .start arg hi => Sys2Proof.Machine.execStart arg hi s
  | .stop arg hi => Sys2Proof.Machine.execStop arg hi s
  | .softReset arg hi => Sys2Proof.Machine.execSoftReset arg hi s
  | .discStart arg hi => Sys2Proof.Machine.execDiscStart arg hi s
  | .cmdReserved opc arg hi => Sys2Proof.Machine.execCmdReserved opc arg hi s
  | .rdCmd => Sys2Proof.Machine.execRdCmd s
  | .rdStatus => Sys2Proof.Machine.execRdStatus s
  | .rdAddr => Sys2Proof.Machine.execRdAddr s
  | .rdCrcResult => Sys2Proof.Machine.execRdCrcResult s
  | .rdBucketTtl => Sys2Proof.Machine.execRdBucketTtl s
  | .rdDiscTimeout => Sys2Proof.Machine.execRdDiscTimeout s
  | .rdLastSeq => Sys2Proof.Machine.execRdLastSeq s
  | .rdLastLen => Sys2Proof.Machine.execRdLastLen s
  | .rdConfig => Sys2Proof.Machine.execRdConfig s
  | .rdLastData off => Sys2Proof.Machine.execRdLastData off s
  | .rdMisaligned off => Sys2Proof.Machine.execRdMisaligned off s
  | .rdReserved off => Sys2Proof.Machine.execRdReserved off s
  | .wrCmd v => Sys2Proof.Machine.execWrCmd v s
  | .wrStatus v => Sys2Proof.Machine.execWrStatus v s
  | .wrAddr v => Sys2Proof.Machine.execWrAddr v s
  | .wrCrcResult v => Sys2Proof.Machine.execWrCrcResult v s
  | .wrBucketTtl v => Sys2Proof.Machine.execWrBucketTtl v s
  | .wrDiscTimeout v => Sys2Proof.Machine.execWrDiscTimeout v s
  | .wrLastSeq v => Sys2Proof.Machine.execWrLastSeq v s
  | .wrLastLen v => Sys2Proof.Machine.execWrLastLen v s
  | .wrConfig v => Sys2Proof.Machine.execWrConfig v s
  | .wrLastData off v => Sys2Proof.Machine.execWrLastData off v s
  | .wrMisaligned off v => Sys2Proof.Machine.execWrMisaligned off v s
  | .wrReserved off v => Sys2Proof.Machine.execWrReserved off v s
  | .frameData f => Sys2Proof.Machine.execFrameData f s
  | .frameDiscReq f => Sys2Proof.Machine.execFrameDiscReq f s
  | .frameDiscRsp f => Sys2Proof.Machine.execFrameDiscRsp f s
  | .frameReserved f => Sys2Proof.Machine.execFrameReserved f s

end Sys2Proof.Machine
end

