-- ==== Sys2Proof/Machine/Step.lean ====
section
/-! DEFINITION. One step: the event at the head of the input is taken, decoded and run (spec/00_scope.md R15,
30_encoding.md R80). -/

namespace Sys2Proof.Machine

/-- One event (R15). With no event offered nothing happens (entry 3). -/
def step (s : State) : Host.Outcome State Fault Refusal :=
  match s.input with
  | [] => .next s
  | t :: _ =>
    match decode t with
    | .ok i => exec i s.popInput
    | .error e => rejectTransfer e

/-- The state with the instruction of a table word offered as the next event (entry 2). -/
def State.withFetchWord (s : State) (nbits w : Nat) : State :=
  { s with input := tableTransfer nbits w :: s.input }

end Sys2Proof.Machine
end

