-- ==== Sys2Proof/Machine/Instances.lean ====
section
/-! DEFINITION. Several link engines (spec/60_exceptions.md R240): one instance per device, sharing no
state. That the free draws of all instances are one constant is a DESIGN CHOICE (entry 23). -/

namespace Sys2Proof.Machine

/-- One event of the k-th instance. An index with no instance has no event. -/
def stepInstance (k : Nat) (engines : List State) : Host.Outcome (List State) Fault Refusal :=
  match engines[k]? with
  | none => .next engines
  | some s =>
    match step s with
    | .next t => .next (engines.set k t)
    | .fault e => .fault e
    | .refused r => .refused r

end Sys2Proof.Machine
end

