-- ==== Sys2Proof/Machine/Trace.lean ====
section
/-! DEFINITION. The event traces of spec/30_encoding.md R84 and the pseudo-instructions of R85: what each line offers
to the machine. The text itself (spaces, quotes) is not modelled. -/

namespace Sys2Proof.Machine

/-- The register names of 20_memory.md R51. -/
inductive RegName where
  | cmd
  | status
  | addr
  | crcResult
  | bucketTtl
  | discTimeout
  | lastSeq
  | lastLen
  | config
  | lastData
  deriving DecidableEq, Repr

/-- The offset of a name (R51); LAST_DATA is the start of its window. -/
def RegName.offset : RegName → Offset
  | .cmd => 0x0000#15
  | .status => 0x0004#15
  | .addr => 0x0008#15
  | .crcResult => 0x000C#15
  | .bucketTtl => 0x0010#15
  | .discTimeout => 0x0014#15
  | .lastSeq => 0x0018#15
  | .lastLen => 0x001C#15
  | .config => 0x0020#15
  | .lastData => 0x4000#15

/-- One line of a trace (R84, R85). -/
inductive TraceLine where
  | reset
  | tick (rx : List Byte)
  | ids (vs : List Word)
  | submit (m : List Byte)
  | submitPat (n : Nat)
  | rd (r : RegName)
  | rdAt (off : Offset)
  | wr (r : RegName) (v : Word)
  | wrAt (off : Offset) (v : Word)
  | cmd (opc arg : Byte)
  | start
  | stop
  | softReset
  | disc
  | crcInit
  | crcBytes (bs : List Byte)
  | clrErr
  deriving DecidableEq, Repr

/-- `pat(n)`: the bytes 0, 1, ..., (n-1) mod 256. -/
def patBytes (n : Nat) : List Byte := (List.range n).map (BitVec.ofNat 8)

/-- `cmd <MNEMONIC>, <byte>`: `REG_WRITE CMD, zext_32(byte) << 8 | OPC` (R84). -/
def cmdEvent (opc arg : Byte) : Event := .regWrite 0x0000#15 ((arg.setWidth 32 <<< 8) ||| opc.setWidth 32)

/-- The events of a line. `ids` is a directive to the environment and has none. -/
def TraceLine.events : TraceLine → List Event
  | .reset => [.reset]
  | .tick rx => [.tick rx]
  | .ids _ => []
  | .submit m => [.submit m]
  | .submitPat n => [.submit (patBytes n)]
  | .rd r => [.regRead r.offset]
  | .rdAt off => [.regRead off]
  | .wr r v => [.regWrite r.offset v]
  | .wrAt off v => [.regWrite off v]
  | .cmd opc arg => [cmdEvent opc arg]
  | .start => [.regWrite RegName.cmd.offset 0x00000003#32]
  | .stop => [.regWrite RegName.cmd.offset 0x00000004#32]
  | .softReset => [.regWrite RegName.cmd.offset 0x00000005#32]
  | .disc => [.regWrite RegName.cmd.offset 0x00000006#32]
  | .crcInit => [.regWrite RegName.cmd.offset 0x00000001#32]
  | .crcBytes bs => bs.map fun (c : Byte) => Event.regWrite RegName.cmd.offset ((c.setWidth 32 <<< 8) ||| 0x02#32)
  | .clrErr => [.regWrite RegName.status.offset 0x00000002#32]

/-- The draws a line lists (R84 `ids`). -/
def TraceLine.draws : TraceLine → List Word
  | .ids vs => vs
  | _ => []

/-- A line is offered to the machine: its events after those already waiting, its draws likewise. -/
def State.offer (s : State) (l : TraceLine) : State :=
  { s with
    input := s.input ++ l.events.map fun e => encode e.toInstr
    frameIdRand := s.frameIdRand ++ l.draws }

/-- A whole trace is offered. -/
def State.offerAll (s : State) (ls : List TraceLine) : State := ls.foldl State.offer s

end Sys2Proof.Machine
end

