-- ==== Sys2Proof/Safety.lean ====
section
/-! DEFINITION. What counts as a safe state and a safe run of the link engine, in the terms the statements use: the
invariants of spec/10_state.md R42 with the bounds of R30 to R32 and R63, runs, and what a well-sent fragment is. -/

namespace Sys2Proof.Machine

/-! ### The invariants (R42) -/

/-- The buckets in use, in slot order. -/
def State.buckets (s : State) : List Bucket := s.slots.filterMap id

/-- A bucket in progress: R42 (b) and (c), and the 50-byte payloads of R31. -/
structure Bucket.Inv (cfg : Config.Params) (b : Bucket) : Prop where
  totalLow   : 2 ≤ b.total.toNat
  totalHigh  : b.total.toNat ≤ cfg.maxFrag.toNat
  rising     : b.held.Pairwise (· < ·)
  inRange    : ∀ o ∈ b.held, 1 ≤ o ∧ o ≤ b.total.toNat
  nonEmpty   : b.held ≠ []
  notFull    : b.held ≠ b.numbers
  payloads   : ∀ p ∈ b.frags, p.2.length = Config.payloadLen

/-- The invariant every event keeps: R42 (a), (b), (c), (e), (f), the slot count of R31, the queue of R30, the last
message of R32, the transfers of R63 and R65. R42 (d) speaks of the moment after ageing and is a statement of its own. -/
structure State.Inv (s : State) : Prop where
  legal       : s.cfg.legal = true
  slotCount   : s.slots.length = s.cfg.nb.toNat
  distinctIds : (s.buckets.map Bucket.frameId).Nodup
  bucketsOk   : ∀ b ∈ s.buckets, b.Inv s.cfg
  queueBound  : s.txq.length ≤ s.cfg.txqMax.toNat
  messages    : ∀ m ∈ s.txq, m.length ≤ Config.maxMsg
  pendingWait : s.discPending = true → s.discState = .wait
  lastWhole   : s.lastMsg.length % Config.payloadLen = 0
  lastBound   : s.lastMsg.length ≤ Config.payloadLen * s.cfg.maxFrag.toNat
  framesSent  : ∀ b ∈ s.txRaw, b.length = Config.frameLen
  delivered   : ∀ m ∈ s.msgRx, m.length % Config.payloadLen = 0 ∧ Config.payloadLen ≤ m.length
                  ∧ m.length ≤ Config.payloadLen * s.cfg.maxFrag.toNat

/-! ### Runs -/

/-- The instructions of a list one after another; the first stop ends the run. -/
def runInstrs : List Instr → State → Host.Outcome State Fault Refusal
  | [], s => .next s
  | i :: is, s =>
    match exec i s with
    | .next t => runInstrs is t
    | .fault e => .fault e
    | .refused r => .refused r

/-- The states a link engine can come to: from RESET with any legal parameters, whatever events and draws the
environment lists (R80, R192). -/
inductive Reachable : State → Prop
  | reset (cfg : Config.Params) (h : cfg.legal = true) : Reachable (State.resetOf cfg)
  | offered (s : State) (events : List Transfer) (ids : List Word) (h : Reachable s) :
      Reachable { s with input := s.input ++ events, frameIdRand := s.frameIdRand ++ ids }
  | stepped (s t : State) (h : Reachable s) (hs : step s = .next t) : Reachable t

/-- Blocks given to the data path one after another (R150). -/
def feedAll : List (List Byte) → State → Except Fault State
  | [], s => .ok s
  | rx :: rest, s =>
    match deframe rx s with
    | .error e => .error e
    | .ok (_, t) => feedAll rest t

/-! ### The words of the statements -/

/-- Bit `i` of a byte sequence flipped, bit 0 the least significant bit of byte 0. -/
def flipBit (b : List Byte) (i : Nat) : List Byte := b.set (i / 8) (byteAt b (i / 8) ^^^ BitVec.twoPow 8 (i % 8))

/-- A payload as the wire carries it: padded with zeros to 50 bytes (R75). -/
def padded (p : List Byte) : List Byte := p ++ zeros (Config.payloadLen - p.length)

/-- A frame the data path files (R153 to R156): data preamble, host destination, fragment number in 1 .. total, total
within `P_MAXFRAG`. -/
structure Acceptable (cfg : Config.Params) (f : Frame) : Prop where
  preamble : f.preamble = Config.preData
  dest     : f.dest = Config.addrHost
  payload  : f.payload.length = Config.payloadLen
  orderLow : 1 ≤ f.frameOrder.toNat
  orderMax : f.frameOrder.toNat ≤ f.frameTotal.toNat
  totalMax : f.frameTotal.toNat ≤ cfg.maxFrag.toNat

/-- No bucket collects an identifier. -/
def State.noBucket (s : State) (id : Word) : Prop := ∀ b ∈ s.buckets, b.frameId ≠ id

/-- Slot `k` holds bucket `b`, and no lower slot holds its identifier. -/
def State.bucketAt (s : State) (k : Nat) (b : Bucket) : Prop :=
  s.slots[k]? = some (some b) ∧ ∀ j < k, ∀ c, s.slots[j]? = some (some c) → c.frameId ≠ b.frameId

/-- Slot `k` is the lowest free slot. -/
def State.lowestFree (s : State) (k : Nat) : Prop :=
  s.slots[k]? = some none ∧ ∀ j < k, s.slots[j]? ≠ some none

/-- The fields no TICK writes (R140): parameters, run flag, command error, CRC unit, address, time-to-live, timeout,
answers, events still offered. -/
structure SameSettings (s t : State) : Prop where
  cfg         : t.cfg = s.cfg
  en          : t.en = s.en
  cmdErr      : t.cmdErr = s.cmdErr
  crcReg      : t.crcReg = s.crcReg
  dstAddr     : t.dstAddr = s.dstAddr
  bucketTtl   : t.bucketTtl = s.bucketTtl
  discTimeout : t.discTimeout = s.discTimeout
  replies     : t.replies = s.replies
  input       : t.input = s.input

/-- The fields the outgoing phase does not write: the reassembly store, the last message, the verdict of discovery. -/
structure SameReceiveSide (s t : State) : Prop where
  slots     : t.slots = s.slots
  lastMsg   : t.lastMsg = s.lastMsg
  lastSeq   : t.lastSeq = s.lastSeq
  msgRx     : t.msgRx = s.msgRx
  rxRaw     : t.rxRaw = s.rxRaw
  discState : t.discState = s.discState

/-- The fields the incoming phase does not write: the queue, the request, what was sent, the draws. -/
structure SameSendSide (s t : State) : Prop where
  txq         : t.txq = s.txq
  txRaw       : t.txRaw = s.txRaw
  discPending : t.discPending = s.discPending
  frameIdRand : t.frameIdRand = s.frameIdRand
  draws       : t.draws = s.draws

/-- Instruction `i` is a write of a command word with this opcode to CMD (R211). -/
def IsCommand (i : Instr) (p : Byte → Prop) : Prop := ∃ v, i.toEvent = .regWrite 0x0000#15 v ∧ p (cmdOpc v)

end Sys2Proof.Machine
end

