-- ==== Sys2Proof/Certificates/Slice0/Obligations.lean ====
section
/-! DEFINITION. The statements about the link engine, from the numbered rules of spec/. Each docstring names the rule
it formalises, or says that it is the model's own choice and names the log entry. -/

open Sys2Proof Sys2Proof.Machine

/-! ### Encoding -/

/-- Decoding an encoded well-formed instruction gives it back (R70, R76, R79, R80; the byte form is entry 11). -/
def Obligations.DecodeOfEncodeIsIdentity : Prop :=
  ∀ i : Instr, i.wellFormed = true → decode (encode i) = .ok i

/-- A transfer that decodes is the encoding of its instruction, which is well-formed: each transfer has one meaning. -/
def Obligations.EncodeOfDecodeIsIdentity : Prop :=
  ∀ (t : Transfer) (i : Instr), decode t = .ok i → i.wellFormed = true ∧ encode i = t

/-- Words written out bit by bit decode to what they stand for: command words from R76 and R77 (0xABCD3102 is
V-CRC-JUNK's), a frame from R70 (V-DISC-REQ). Of the event and register transfers the tags, offsets and direction bit are
those of R80 and R79; that they stand as bytes, the tag or key first and the low byte first, is the model's choice
(entry 11). -/
def Obligations.SpecWordsDecode : Prop :=
  decode ⟨.event, [0x00#8]⟩ = .ok .reset ∧
  decode ⟨.event, [0x03#8, 0x0C#8, 0x00#8]⟩ = .ok (.regRead 0x000C#15) ∧
  decode ⟨.event, [0x04#8, 0x08#8, 0x00#8, 0x02#8, 0x01#8, 0x00#8, 0x00#8]⟩ = .ok (.regWrite 0x0008#15 0x00000102#32) ∧
  decode ⟨.cmd, [0x02#8, 0x31#8, 0xCD#8, 0xAB#8]⟩ = .ok (.crcByte 0x31#8 0xABCD#16) ∧
  decode ⟨.cmd, [0x80#8, 0x56#8, 0x34#8, 0x12#8]⟩ = .ok (.cmdReserved 0x80#8 0x56#8 0x1234#16) ∧
  decode ⟨.reg, [0x20#8, 0x00#8]⟩ = .ok .rdConfig ∧
  decode ⟨.reg, [0xFC#8, 0x7F#8]⟩ = .ok (.rdLastData 0x7FFC#15) ∧
  decode ⟨.reg, [0x14#8, 0x80#8, 0x04#8, 0x00#8, 0x00#8, 0x00#8]⟩ = .ok (.wrDiscTimeout 4#32) ∧
  decode ⟨.reg, [0x01#8, 0x80#8, 0x03#8, 0x00#8, 0x00#8, 0x00#8]⟩ = .ok (.wrMisaligned 0x0001#15 3#32) ∧
  decode ⟨.frame, [0x02#8, 0x00#8, 0x02#8, 0x01#8, 0xEF#8, 0xBE#8, 0xAD#8, 0x0B#8, 0x01#8, 0x01#8]
      ++ List.replicate 50 0#8 ++ [0x50#8, 0xAB#8, 0xEE#8, 0x3B#8]⟩ =
    .ok (.frameDiscReq ⟨0x0002#16, 0x02#8, 0x01#8, 0x0BADBEEF#32, 1#8, 1#8, List.replicate 50 0#8, 0x3BEEAB50#32⟩)

/-- R77: the row of a command word is decided by bits 7:0 alone; ARG and bits 31:16 are carried along. -/
def Obligations.CommandRowIsDecidedByLowByte : Prop :=
  ∀ v : Word, decode ⟨.cmd, le32 v⟩ = .ok (
    if v.toNat % 256 = 0x00 then .nop (v.extractLsb' 8 8) (v.extractLsb' 16 16)
    else if v.toNat % 256 = 0x01 then .crcInit (v.extractLsb' 8 8) (v.extractLsb' 16 16)
    else if v.toNat % 256 = 0x02 then .crcByte (v.extractLsb' 8 8) (v.extractLsb' 16 16)
    else if v.toNat % 256 = 0x03 then .start (v.extractLsb' 8 8) (v.extractLsb' 16 16)
    else if v.toNat % 256 = 0x04 then .stop (v.extractLsb' 8 8) (v.extractLsb' 16 16)
    else if v.toNat % 256 = 0x05 then .softReset (v.extractLsb' 8 8) (v.extractLsb' 16 16)
    else if v.toNat % 256 = 0x06 then .discStart (v.extractLsb' 8 8) (v.extractLsb' 16 16)
    else .cmdReserved (v.extractLsb' 0 8) (v.extractLsb' 8 8) (v.extractLsb' 16 16))

/-- R79: an offset is misaligned, or in the LAST_DATA window, or one of the nine registers of R51, or reserved. The
read key is the offset itself, the write key has bit 15 set. -/
def Obligations.RegisterRowIsDecidedByOffset : Prop :=
  ∀ (off : Offset) (v : Word) (rd wr : Except DecodeError Instr),
    rd = decode ⟨.reg, le16 (off.setWidth 16)⟩ →
    wr = decode ⟨.reg, le16 (0x8000#16 ||| off.setWidth 16) ++ le32 v⟩ →
    (off.toNat % 4 ≠ 0 → rd = .ok (.rdMisaligned off) ∧ wr = .ok (.wrMisaligned off v)) ∧
    (off.toNat % 4 = 0 → 0x4000 ≤ off.toNat → rd = .ok (.rdLastData off) ∧ wr = .ok (.wrLastData off v)) ∧
    (off.toNat % 4 = 0 → 0x0024 ≤ off.toNat → off.toNat < 0x4000 →
      rd = .ok (.rdReserved off) ∧ wr = .ok (.wrReserved off v)) ∧
    (off.toNat = 0x0000 → rd = .ok .rdCmd ∧ wr = .ok (.wrCmd v)) ∧
    (off.toNat = 0x0004 → rd = .ok .rdStatus ∧ wr = .ok (.wrStatus v)) ∧
    (off.toNat = 0x0008 → rd = .ok .rdAddr ∧ wr = .ok (.wrAddr v)) ∧
    (off.toNat = 0x000C → rd = .ok .rdCrcResult ∧ wr = .ok (.wrCrcResult v)) ∧
    (off.toNat = 0x0010 → rd = .ok .rdBucketTtl ∧ wr = .ok (.wrBucketTtl v)) ∧
    (off.toNat = 0x0014 → rd = .ok .rdDiscTimeout ∧ wr = .ok (.wrDiscTimeout v)) ∧
    (off.toNat = 0x0018 → rd = .ok .rdLastSeq ∧ wr = .ok (.wrLastSeq v)) ∧
    (off.toNat = 0x001C → rd = .ok .rdLastLen ∧ wr = .ok (.wrLastLen v)) ∧
    (off.toNat = 0x0020 → rd = .ok .rdConfig ∧ wr = .ok (.wrConfig v))

/-! ### The step -/

/-- A step takes the event at the head of the input and runs the instruction it decodes to; nothing else changes
(R15, R80; the input list is entry 2). -/
def Obligations.StepRunsDecodedEvent : Prop :=
  ∀ (s : State) (t : Transfer) (rest : List Transfer) (i : Instr),
    s.input = t :: rest → decode t = .ok i → step s = exec i { s with input := rest }

/-- The model's choice where no event can run: with no event offered nothing changes (entry 3); event tags 0x5 to 0xF
are stuck (93_implementation_defined.md I22); any other transfer that does not decode is refused (entry 4). -/
def Obligations.StepWithoutAnEvent : Prop :=
  (∀ s : State, s.input = [] → step s = .next s) ∧
  (∀ (s : State) (tag : Byte) (operands : List Byte) (rest : List Transfer),
    s.input = ⟨.event, tag :: operands⟩ :: rest → 5 ≤ tag.toNat → tag.toNat < 16 →
      step s = .fault (.noSuchEvent tag)) ∧
  (∀ (s : State) (t : Transfer) (rest : List Transfer) (e : DecodeError),
    s.input = t :: rest → decode t = .error e → (∀ tag, e ≠ .noEvent tag) →
      step s = .refused (.malformedTransfer e))

/-- Every row of the opcode table is one of the five events of R80: a command is a write of its word to CMD (R211), a
register row the access of its offset (R79), a frame the block of a TICK (entry 5). It has that event's effect. -/
def Obligations.EveryRowActsAsItsEvent : Prop :=
  ∀ (i : Instr) (s : State), i.wellFormed = true → exec i s = exec i.toEvent.toInstr s

/-- R230: no event raises a trap. Every event, in every state, answers a next state; the parameters and the events
still offered are as before. In particular the model fault of R122 is never met. -/
def Obligations.EveryEventCompletes : Prop :=
  ∀ (i : Instr) (s : State), ∃ t, exec i s = .next t ∧ t.cfg = s.cfg ∧ t.input = s.input

/-! ### Reset -/

/-- R250 with the values of R44: RESET gives every state field its reset value, and the parameters, the frames and the
messages already emitted stay; the registers then read as R34 to R39 say. That the answers (entry 8), the blocks read
(entry 16), the listed draws and their count (entry 7) and the events still offered (entry 2) stay too is the model's
choice, and so is the instance `State.reset` (entry 1), which is its own RESET. -/
def Obligations.ResetEventRestoresResetValues : Prop :=
  ∀ s : State, ∃ t, exec .reset s = .next t ∧
    t = { s with
      en := false, cmdErr := false, crcReg := 0xFFFFFFFF#32, dstAddr := 0x00#8, bucketTtl := 0#32,
      discTimeout := 16#32, discState := .idle, discPending := false, discWait := 0#32, txq := [],
      slots := List.replicate s.cfg.nb.toNat none, lastMsg := [], lastSeq := 0#32 } ∧
    readReg 0x0004#15 t = 0x00000000#32 ∧ readReg 0x0008#15 t = 0x00000000#32 ∧
    readReg 0x000C#15 t = 0x00000000#32 ∧ readReg 0x0010#15 t = 0x00000000#32 ∧
    readReg 0x0014#15 t = 0x00000010#32 ∧ readReg 0x0018#15 t = 0x00000000#32 ∧
    readReg 0x001C#15 t = 0x00000000#32 ∧
    exec .reset State.reset = .next State.reset

/-! ### CRC -/

/-- R104 and R105: CRC_INIT sets the accumulator, CRC_BYTE steps it by ARG; both whatever `en` holds and whatever the
ignored bits are; nothing else changes. -/
def Obligations.CrcCommandsDriveAccumulator : Prop :=
  ∀ (s : State) (arg : Byte) (hi : Half),
    exec (.crcInit arg hi) s = .next { s with crcReg := 0xFFFFFFFF#32 } ∧
    exec (.crcByte arg hi) s = .next { s with crcReg := crcStep s.crcReg arg }

/-- R106 ("after bytes `b` have been fed since the last `CRC_INIT`, or since reset, the read returns `crc32(b)`", which
the spec marks as derived): CRC_RESULT then reads `crc32(bs)`; after CRC_INIT the accumulator is all that moved, and the
read changes nothing. -/
def Obligations.CrcResultReadsCrcOfBytesFed : Prop :=
  ∀ (s : State) (arg : Byte) (hi : Half) (bs : List Byte), ∃ t,
    runInstrs (.crcInit arg hi :: bs.map fun b => .crcByte b hi) s = .next t ∧
    t = { s with crcReg := t.crcReg } ∧
    exec .rdCrcResult t = .next { t with replies := t.replies ++ [.value (crc32 bs)] } ∧
    ∃ u, runInstrs (.reset :: bs.map fun b => .crcByte b hi) s = .next u ∧
      exec .rdCrcResult u = .next { u with replies := u.replies ++ [.value (crc32 bs)] }

/-- R108, the residue, which the spec gives from general knowledge (entry 15). -/
def Obligations.CrcResidueIsConstant : Prop :=
  ∀ bs : List Byte, crc32 (bs ++ le32 (crc32 bs)) = 0x2144DF1C#32 ∧
    crcFeed crcInitial (bs ++ le32 (crc32 bs)) = 0xDEBB20E3#32

/-- R128, whose two cases the spec marks as derived and as general knowledge (entry 15): flipping any single bit of a
valid 64-byte block makes it invalid. -/
def Obligations.CrcDetectsEverySingleBitFlip : Prop :=
  ∀ (b : List Byte) (f : Frame) (i : Nat),
    Frame.decode b = .ok f → isValid f = .ok true → i < 512 →
      ∃ g, Frame.decode (flipBit b i) = .ok g ∧ isValid g = .ok false

/-- R107: a TICK neither reads nor writes `crc_reg`: with another accumulator it does the same and leaves it alone. -/
def Obligations.CrcUnitIsIndependentOfTicks : Prop :=
  ∀ (s : State) (rx : List Byte) (c : Word), ∃ t,
    exec (.tick rx) s = .next t ∧ t.crcReg = s.crcReg ∧
    exec (.tick rx) { s with crcReg := c } = .next { t with crcReg := c }

/-! ### Codec -/

/-- R121: `encode` lays the fields out little-endian, pads the payload, appends the CRC of the first 60 bytes, 64 bytes
in all; a payload over 50 bytes is ModelFault(ENC_OVERSIZE). -/
def Obligations.EncodeFrameLayout : Prop :=
  ∀ f : Frame,
    (50 < f.payload.length → encodeFrame f = .error .encOversize) ∧
    (f.payload.length ≤ 50 → ∃ body : List Byte,
      body = le16 f.preamble ++ [f.dest, f.src] ++ le32 f.frameId ++ [f.frameOrder, f.frameTotal]
        ++ f.payload ++ List.replicate (50 - f.payload.length) 0#8 ∧
      body.length = 60 ∧
      encodeFrame f = .ok (body ++ le32 (crc32 body)) ∧ (body ++ le32 (crc32 body)).length = 64)

/-- R123 and R124: `decode` is a length error unless 64 bytes; otherwise the fields at their offsets, and no byte is
lost. -/
def Obligations.DecodeFrameKeepsEveryByte : Prop :=
  ∀ b : List Byte,
    (b.length ≠ 64 → Frame.decode b = .error .frameLength) ∧
    (b.length = 64 → ∃ f, Frame.decode b = .ok f ∧
      f.preamble = getLe16 b 0 ∧ f.dest = byteAt b 2 ∧ f.src = byteAt b 3 ∧ f.frameId = getLe32 b 4 ∧
      f.frameOrder = byteAt b 8 ∧ f.frameTotal = byteAt b 9 ∧ f.payload = slice b 10 60 ∧ f.crc = getLe32 b 60 ∧
      f.payload.length = 50 ∧ f.toWire = b)

/-- R126, which the spec marks as derived from R121, R123 and R125: a received block is valid exactly when the CRC of its first 60 bytes is the stored one. -/
def Obligations.ReceivedValidityIsCrcOfSixtyBytes : Prop :=
  ∀ b : List Byte, b.length = 64 → ∃ f, Frame.decode b = .ok f ∧
    isValid f = .ok (decide (crc32 (slice b 0 60) = getLe32 b 60))

/-- R127, the round trip of the codec, which the spec marks as derived from R121, R123 and R125. -/
def Obligations.EncodeDecodeRoundTrip : Prop :=
  ∀ f : Frame, f.payload.length ≤ 50 → ∃ bs g, encodeFrame f = .ok bs ∧ Frame.decode bs = .ok g ∧
    g = { f with payload := f.payload ++ zeros (50 - f.payload.length), crc := getLe32 bs 60 } ∧
    getLe32 bs 60 = crc32 (slice bs 0 60) ∧ isValid g = .ok true

/-! ### The tick -/

/-- R141: while `en = 0` a TICK, and so a frame, changes no state: no draw is taken, nothing is read and nothing is
emitted. -/
def Obligations.StoppedTickChangesNothing : Prop :=
  ∀ (s : State) (rx : List Byte) (f : Frame), s.en = false →
    exec (.tick rx) s = .next s ∧ exec (.frameData f) s = .next s ∧ exec (.frameDiscReq f) s = .next s ∧
    exec (.frameDiscRsp f) s = .next s ∧ exec (.frameReserved f) s = .next s

/-- R142: "A running `TICK` does its phases in this order: ageing, then incoming, then outgoing", by the pseudocode of
R140, on the state that has recorded the block read (entry 16); no phase faults and no setting moves. Derived from R140,
R143 and R168: with no block, an empty queue and no request pending, all a TICK does is age the buckets, free those that
reach the time-to-live and, while discovery waits, count the wait and set FAIL at the timeout. -/
def Obligations.RunningTickRunsPhasesInOrder : Prop :=
  ∀ (s : State) (rx : List Byte), s.en = true →
    (∃ u v w t, discObserve rx (ageBuckets (s.takeRx rx)) = .ok u ∧ deframe rx u = .ok (v, w) ∧ outgoing w = .ok t ∧
      exec (.tick rx) s = .next t ∧ SameSettings s t) ∧
    (s.txq = [] → s.discPending = false →
      exec (.tick []) s =
        .next (if s.discState = .wait then discTimeoutTick (ageBuckets s) else ageBuckets s))

/-- R142: within the incoming phase the order of the discovery check and the data path does not change the outcome. -/
def Obligations.DiscoveryAndDataPathCommute : Prop :=
  ∀ (s : State) (rx : List Byte), ∃ u v w x,
    discObserve rx s = .ok u ∧ deframe rx s = .ok (v, w) ∧ deframe rx u = .ok (v, x) ∧ discObserve rx w = .ok x

/-- R143: each valid slot's age grows by one, saturating, and a bucket whose age reaches a non-zero time-to-live is
freed; nothing else changes. So a bucket of age 0 has age `n` after `n` ageings and is gone after `bucket_ttl` of
them, and with `bucket_ttl = 0` it is never gone. -/
def Obligations.AgeingExpiresBuckets : Prop :=
  (∀ s : State, ageBuckets s = { s with slots := (ageBuckets s).slots } ∧
    (ageBuckets s).slots.length = s.slots.length ∧
    (∀ k : Nat, s.slots[k]? = some none → (ageBuckets s).slots[k]? = some none) ∧
    (∀ (k : Nat) (b : Bucket), s.slots[k]? = some (some b) → (ageBuckets s).slots[k]? = some (
      if s.bucketTtl.toNat ≠ 0 ∧ s.bucketTtl.toNat ≤ min (b.age.toNat + 1) 0xFFFFFFFF then none
      else some { b with age := BitVec.ofNat 32 (min (b.age.toNat + 1) 0xFFFFFFFF) }))) ∧
  (∀ (s : State) (k : Nat) (b : Bucket) (n : Nat), s.slots[k]? = some (some b) → b.age = 0#32 →
    (Nat.iterate ageBuckets n s).slots[k]? = some (
      if s.bucketTtl.toNat ≠ 0 ∧ s.bucketTtl.toNat ≤ n then none
      else some { b with age := BitVec.ofNat 32 (min n 0xFFFFFFFF) }))

/-- R42 (d), which the spec marks as derived: with a non-zero time-to-live every bucket is younger than it, after the ageing phase and still at the end
of the TICK. -/
def Obligations.RunningTickLeavesAgesBelowTtl : Prop :=
  ∀ (s : State) (rx : List Byte), s.en = true → s.bucketTtl ≠ 0#32 →
    (∀ b ∈ (ageBuckets s).buckets, b.age.toNat < s.bucketTtl.toNat) ∧
    ∃ t, exec (.tick rx) s = .next t ∧ ∀ b ∈ t.buckets, b.age.toNat < s.bucketTtl.toNat

/-! ### The data path -/

/-- R17: a dropped frame changes nothing and signals nothing: no field, register or port moves. -/
def Obligations.DroppedFramesChangeNothing : Prop :=
  ∀ (rx : List Byte) (s : State), ∃ v t, deframe rx s = .ok (v, t) ∧ (v.isDrop = true → t = s)

/-- R151 to R156: the checks on a block, in their order, by its bytes. -/
def Obligations.DataPathChecksInOrder : Prop :=
  ∀ (rx : List Byte) (s : State),
    (rx = [] → deframe rx s = .ok (.none, s)) ∧
    (rx ≠ [] → rx.length ≠ 64 → deframe rx s = .ok (.length, s)) ∧
    (rx.length = 64 → crc32 (slice rx 0 60) ≠ getLe32 rx 60 → deframe rx s = .ok (.crc, s)) ∧
    (rx.length = 64 → crc32 (slice rx 0 60) = getLe32 rx 60 →
      (getLe16 rx 0 ≠ 0x0001#16 → deframe rx s = .ok (.preamble, s)) ∧
      (getLe16 rx 0 = 0x0001#16 → byteAt rx 2 ≠ 0x01#8 → deframe rx s = .ok (.dest, s)) ∧
      (getLe16 rx 0 = 0x0001#16 → byteAt rx 2 = 0x01#8 →
        ((byteAt rx 9).toNat = 0 ∨ (byteAt rx 8).toNat = 0 ∨ (byteAt rx 9).toNat < (byteAt rx 8).toNat ∨
          s.cfg.maxFrag.toNat < (byteAt rx 9).toNat) → deframe rx s = .ok (.range, s)))

/-- R157: a single-fragment frame frees every bucket of its identifier and its 50-byte payload is dispatched, whatever
the slots hold. -/
def Obligations.SingleFragmentIsDispatched : Prop :=
  ∀ (rx : List Byte) (f : Frame) (s : State),
    Frame.decode rx = .ok f → isValid f = .ok true → Acceptable s.cfg f → f.frameTotal = 1#8 →
      deframe rx s = .ok (.single, { s with
        slots := s.slots.map fun o => o.filter fun b => decide (b.frameId ≠ f.frameId),
        lastMsg := f.payload, lastSeq := s.lastSeq + 1#32, msgRx := s.msgRx ++ [f.payload] })

/-- R159: the first fragment of a set takes the lowest free slot: its bucket has the frame's identifier and total, this
fragment alone, and age 0. -/
def Obligations.FirstFragmentTakesLowestFreeSlot : Prop :=
  ∀ (rx : List Byte) (f : Frame) (s : State) (k : Nat),
    Frame.decode rx = .ok f → isValid f = .ok true → Acceptable s.cfg f → f.frameTotal ≠ 1#8 →
    s.noBucket f.frameId → s.lowestFree k →
      deframe rx s = .ok (.stored, { s with
        slots := s.slots.set k (some ⟨f.frameId, f.frameTotal, [(f.frameOrder.toNat, f.payload)], 0#32⟩) })

/-- R160, R161 and R162: a newcomer to a full store, a fragment whose total disagrees with its bucket, and a fragment
already held are dropped. -/
def Obligations.UnfilableFragmentsAreDropped : Prop :=
  ∀ (rx : List Byte) (f : Frame) (s : State),
    Frame.decode rx = .ok f → isValid f = .ok true → Acceptable s.cfg f → f.frameTotal ≠ 1#8 →
      (s.noBucket f.frameId → none ∉ s.slots → deframe rx s = .ok (.overflow, s)) ∧
      (∀ k b, s.bucketAt k b → b.frameId = f.frameId → b.total ≠ f.frameTotal →
        deframe rx s = .ok (.totalMismatch, s)) ∧
      (∀ k b, s.bucketAt k b → b.frameId = f.frameId → b.total = f.frameTotal → f.frameOrder.toNat ∈ b.held →
        deframe rx s = .ok (.duplicate, s))

/-- R163: a new fragment that does not complete its bucket is kept: its number joins `have`, its payload is `frag[o]`,
every other fragment, the total and the age stay. -/
def Obligations.FragmentIsStored : Prop :=
  ∀ (rx : List Byte) (f : Frame) (s : State) (k : Nat) (b : Bucket),
    Frame.decode rx = .ok f → isValid f = .ok true → Acceptable s.cfg f → f.frameTotal ≠ 1#8 →
    s.bucketAt k b → b.frameId = f.frameId → b.total = f.frameTotal → b.Inv s.cfg → f.frameOrder.toNat ∉ b.held →
    (∃ j, 1 ≤ j ∧ j ≤ b.total.toNat ∧ j ≠ f.frameOrder.toNat ∧ j ∉ b.held) →
      ∃ c, deframe rx s = .ok (.stored, { s with slots := s.slots.set k (some c) }) ∧
        c.frameId = b.frameId ∧ c.total = b.total ∧ c.age = b.age ∧
        (∀ j, j ∈ c.held ↔ j = f.frameOrder.toNat ∨ j ∈ b.held) ∧
        c.frag f.frameOrder.toNat = f.payload ∧ ∀ j, j ≠ f.frameOrder.toNat → c.frag j = b.frag j

/-- R164: the fragment that makes `have = {1 .. total}` completes the message: the fragments in `frameOrder` order
whatever the arrival order, 50 bytes each; the slot is freed and the message dispatched. Otherwise the bucket waits and
nothing is delivered. -/
def Obligations.LastFragmentCompletesMessage : Prop :=
  ∀ (rx : List Byte) (f : Frame) (s : State) (k : Nat) (b : Bucket) (m : List Byte),
    Frame.decode rx = .ok f → isValid f = .ok true → Acceptable s.cfg f → f.frameTotal ≠ 1#8 →
    s.bucketAt k b → b.frameId = f.frameId → b.total = f.frameTotal → b.Inv s.cfg → f.frameOrder.toNat ∉ b.held →
    m = (List.range' 1 b.total.toNat).flatMap (fun j => if j = f.frameOrder.toNat then f.payload else b.frag j) →
      ((∀ j, 1 ≤ j → j ≤ b.total.toNat → j = f.frameOrder.toNat ∨ j ∈ b.held) →
        m.length = 50 * b.total.toNat ∧
        deframe rx s = .ok (.completed, { s with
          slots := s.slots.set k none, lastMsg := m, lastSeq := s.lastSeq + 1#32, msgRx := s.msgRx ++ [m] })) ∧
      ((∃ j, 1 ≤ j ∧ j ≤ b.total.toNat ∧ j ≠ f.frameOrder.toNat ∧ j ∉ b.held) →
        ∃ c, deframe rx s = .ok (.stored, { s with slots := s.slots.set k (some c) }))

/-- R165 over the whole machine: the last message moves by a dispatch (the sequence number grows by one and the message
is emitted, once, in a TICK), or is cleared by RESET or SOFT_RESET (R32, R33); no other event touches it. -/
def Obligations.LastMessageMovesOnlyByDispatchOrReset : Prop :=
  ∀ (i : Instr) (s t : State), exec i s = .next t →
    (t.lastMsg = s.lastMsg ∧ t.lastSeq = s.lastSeq ∧ t.msgRx = s.msgRx) ∨
    ((∃ rx, i.toEvent = .tick rx) ∧ s.en = true ∧ t.lastSeq = s.lastSeq + 1#32 ∧ t.msgRx = s.msgRx ++ [t.lastMsg]) ∨
    ((i = .reset ∨ IsCommand i fun opc => opc = 0x05#8) ∧
      t.lastMsg = [] ∧ t.lastSeq = 0#32 ∧ t.msgRx = s.msgRx)

/-- R166 (the delivered content, which the spec marks as derived) with 95_test_vectors.md §3: the fragments of a message sent to the host address, given to the data path in ANY order, deliver it exactly
once, after the last of them and not before: 50 bytes a fragment, the message first and zeros after it; no bucket is
left behind. -/
def Obligations.ReassemblyInAnyOrder : Prop :=
  ∀ (s : State) (m : List Byte) (id : Word) (sent arrived : List (List Byte)),
    1 ≤ m.length → m.length ≤ 12750 → ceilDiv m.length 50 ≤ s.cfg.maxFrag.toNat →
    s.noBucket id → none ∈ s.slots →
    encodeAll (fragments 0x01#8 id m) = .ok sent → arrived.Perm sent →
      (∃ t, feedAll arrived s = .ok t ∧
        t = { s with
          lastMsg := m ++ zeros (50 * ceilDiv m.length 50 - m.length), lastSeq := s.lastSeq + 1#32,
          msgRx := s.msgRx ++ [m ++ zeros (50 * ceilDiv m.length 50 - m.length)] }) ∧
      (∀ early late, arrived = early ++ late → late ≠ [] →
        ∃ u, feedAll early s = .ok u ∧ u.msgRx = s.msgRx ∧ u.lastMsg = s.lastMsg ∧ u.lastSeq = s.lastSeq)

/-! ### Discovery -/

/-- R167: with a request outstanding the first non-empty block decides: OK for 64 bytes, a valid CRC and preamble
0x0003, FAIL for anything else; with none outstanding no block is judged. -/
def Obligations.DiscoveryJudgesFirstBlock : Prop :=
  ∀ (s : State) (rx : List Byte),
    ((s.discState ≠ .wait ∨ s.discPending = true) → discObserve rx s = .ok s) ∧
    (s.discState = .wait → s.discPending = false → rx ≠ [] →
      discObserve rx s = .ok { s with
        discState := if rx.length = 64 ∧ crc32 (slice rx 0 60) = getLe32 rx 60 ∧ getLe16 rx 0 = 0x0003#16
          then .ok else .fail }) ∧
    (s.discState = .wait → s.discPending = false → discObserve [] s = .ok (discTimeoutTick s))

/-- R168: with the wait count at 0, discovery is still waiting after `n` empty running ticks when `n` is below the
timeout (or `n = 0`), and has failed otherwise; a good reply in the next tick is judged OK while it waits. -/
def Obligations.DiscoveryFailsAfterTimeout : Prop :=
  ∀ (s : State) (n : Nat), s.en = true → s.discState = .wait → s.discPending = false → s.discWait = 0#32 →
    ∃ t, runInstrs (List.replicate n (.tick [])) s = .next t ∧
      t.discState = (if n < max 1 s.discTimeout.toNat then .wait else .fail) ∧
      (n < max 1 s.discTimeout.toNat → ∀ f : Frame, f.payload.length = 50 → f.preamble = 0x0003#16 →
        f.crc = crc32 (frameBody f) → ∃ u, exec (.frameDiscRsp f) t = .next u ∧ u.discState = .ok)

/-- R169: discovery does not hold the data path. A frame that is no data frame is judged and goes no further: the
slots only age and nothing is delivered. A data frame fails an outstanding discovery and still goes through the data path
as if there were none; a single fragment is delivered. -/
def Obligations.DiscoveryDoesNotHoldDataPath : Prop :=
  (∀ (s : State) (i : Instr) (f : Frame), s.en = true → i.wellFormed = true →
    (i = .frameDiscReq f ∨ i = .frameDiscRsp f ∨ i = .frameReserved f) →
      ∃ t, exec i s = .next t ∧ SameSettings s t ∧ t.slots = (ageBuckets s).slots ∧ t.lastMsg = s.lastMsg ∧
        t.lastSeq = s.lastSeq ∧ t.msgRx = s.msgRx ∧
        t.discState = (if s.discState = .wait ∧ s.discPending = false then
          (if f.preamble = 0x0003#16 ∧ f.crc = crc32 (frameBody f) then .ok else .fail) else s.discState)) ∧
  (∀ (s : State) (f : Frame), s.en = true → f.payload.length = 50 → f.preamble = 0x0001#16 →
      ∃ v u t, deframe f.toWire (ageBuckets s) = .ok (v, u) ∧ exec (.frameData f) s = .next t ∧ SameSettings s t ∧
        t.slots = u.slots ∧ t.lastMsg = u.lastMsg ∧ t.lastSeq = u.lastSeq ∧ t.msgRx = u.msgRx ∧
        t.discState = (if s.discState = .wait ∧ s.discPending = false then .fail else s.discState)) ∧
  (∀ (s : State) (f : Frame), s.en = true → Acceptable s.cfg f → f.frameTotal = 1#8 → f.crc = crc32 (frameBody f) →
      ∃ t, exec (.frameData f) s = .next t ∧ SameSettings s t ∧ t.lastMsg = f.payload ∧
        t.lastSeq = s.lastSeq + 1#32 ∧ t.msgRx = s.msgRx ++ [f.payload] ∧
        t.discState = (if s.discState = .wait ∧ s.discPending = false then .fail else s.discState))

/-! ### Framer -/

/-- R180 to R183 and R191: SUBMIT answers OVERSIZE, else FULL, else ACCEPT and appends the message at the tail; `en`
plays no part; nothing else changes. -/
def Obligations.SubmitAnswersItsStatus : Prop :=
  ∀ (m : List Byte) (s : State),
    (12750 < m.length → exec (.submit m) s = .next { s with replies := s.replies ++ [.status .oversize] }) ∧
    (m.length ≤ 12750 → s.txq.length = s.cfg.txqMax.toNat →
      exec (.submit m) s = .next { s with replies := s.replies ++ [.status .full] }) ∧
    (m.length ≤ 12750 → s.txq.length ≠ s.cfg.txqMax.toNat →
      exec (.submit m) s = .next { s with txq := s.txq ++ [m], replies := s.replies ++ [.status .accept] })

/-- R185, R186, R187 and R189: a running TICK with no request pending takes the head message off the queue and emits
its `ceil_div(L, 50)` frames in order, each valid, with the header of R187, one identifier drawn for all, and the i-th
slice padded; their payloads carry the message. It holds for every value of the draw (R192; the list of draws is entry 7).
With an empty queue (R184) nothing is sent and no draw is taken, whatever the block received. -/
def Obligations.TickSendsHeadMessage : Prop :=
  (∀ (s : State) (rx : List Byte), s.en = true → s.discPending = false → s.txq = [] →
    ∃ t, exec (.tick rx) s = .next t ∧ t.txRaw = s.txRaw ∧ t.txq = [] ∧ t.discPending = false ∧
      t.frameIdRand = s.frameIdRand ∧ t.draws = s.draws ∧ SameSettings s t) ∧
  ∀ (s : State) (rx m : List Byte) (rest : List (List Byte)),
    s.en = true → s.discPending = false → s.txq = m :: rest → m.length ≤ 12750 →
      ∃ (t : State) (bs : List (List Byte)) (fs : List Frame), exec (.tick rx) s = .next t ∧ t.txq = rest ∧ t.txRaw = s.txRaw ++ bs ∧
        t.frameIdRand = s.frameIdRand.tail ∧ SameSettings s t ∧
        bs.length = ceilDiv m.length 50 ∧ fs.length = bs.length ∧
        (∀ (i : Nat) (b : List Byte) (f : Frame), bs[i]? = some b → fs[i]? = some f →
          Frame.decode b = .ok f ∧ isValid f = .ok true ∧ f.preamble = 0x0001#16 ∧ f.dest = s.dstAddr ∧
          f.src = 0x01#8 ∧ f.frameId = s.nextId ∧ f.frameOrder.toNat = i + 1 ∧ f.frameTotal.toNat = bs.length ∧
          f.payload = padded (slice m (50 * i) (50 * i + 50))) ∧
        (fs.flatMap Frame.payload).take m.length = m

/-- R184 and R190: a pending discovery request goes out first, with the fields of R190; the request is then no longer
pending, the wait count is 0, `disc_state` stays; what follows it are the frames of the head message, under the next
draw, or nothing where the queue is empty. -/
def Obligations.PendingRequestGoesFirst : Prop :=
  ∀ (s : State) (rx : List Byte), s.en = true → s.discPending = true →
    ∃ t b f more, exec (.tick rx) s = .next t ∧ t.txRaw = s.txRaw ++ b :: more ∧ t.txq = s.txq.tail ∧
      (s.txq = [] → more = []) ∧
      (∀ m rest, s.txq = m :: rest → encodeAll (fragments s.dstAddr s.drawn.nextId m) = .ok more) ∧
      SameSettings s t ∧
      Frame.decode b = .ok f ∧ isValid f = .ok true ∧ f.preamble = 0x0002#16 ∧ f.dest = s.dstAddr ∧
      f.src = 0x01#8 ∧ f.frameId = s.nextId ∧ f.frameOrder = 1#8 ∧ f.frameTotal = 1#8 ∧
      f.payload = List.replicate 50 0#8 ∧
      t.discPending = false ∧ t.discWait = 0#32 ∧ t.discState = s.discState

/-! ### Registers -/

/-- R200 with R52, R53 and R54: a register read answers the value its offset selects and changes no state. -/
def Obligations.RegReadAnswersItsRegister : Prop :=
  ∀ (off : Offset) (s : State), ∃ x,
    exec (.regRead off) s = .next { s with replies := s.replies ++ [.value x] } ∧
    (off.toNat % 4 ≠ 0 → x = 0x00000000#32) ∧
    (off.toNat = 0x0000 → x = 0x00000000#32) ∧
    (off.toNat = 0x0004 → x = statusWord s) ∧
    (off.toNat = 0x0008 → x.toNat = s.dstAddr.toNat) ∧
    (off.toNat = 0x000C → x = s.crcReg ^^^ 0xFFFFFFFF#32) ∧
    (off.toNat = 0x0010 → x = s.bucketTtl) ∧
    (off.toNat = 0x0014 → x = s.discTimeout) ∧
    (off.toNat = 0x0018 → x = s.lastSeq) ∧
    (off.toNat = 0x001C → x = BitVec.ofNat 32 s.lastMsg.length) ∧
    (off.toNat = 0x0020 → x.toNat = s.cfg.nb.toNat + 256 * s.cfg.maxFrag.toNat + 65536 * s.cfg.txqMax.toNat) ∧
    (off.toNat % 4 = 0 → 0x0024 ≤ off.toNat → off.toNat < 0x4000 → x = 0x00000000#32) ∧
    (off.toNat % 4 = 0 → 0x4000 ≤ off.toNat → ∀ j < 4,
      x.extractLsb' (8 * j) 8 = s.lastMsg.getD (off.toNat - 0x4000 + j) 0x00#8)

/-- R41, R202, R35, R106, R37, R38, R39, R40, R53, R54: each read row answers its register and changes no state. -/
def Obligations.ReadRowsAnswerTheirRegister : Prop :=
  ∀ (s : State) (off : Offset),
    exec .rdCmd s = .next { s with replies := s.replies ++ [.value 0x00000000#32] } ∧
    exec .rdStatus s = .next { s with replies := s.replies ++ [.value (statusWord s)] } ∧
    exec .rdAddr s = .next { s with replies := s.replies ++ [.value (s.dstAddr.setWidth 32)] } ∧
    exec .rdCrcResult s = .next { s with replies := s.replies ++ [.value (s.crcReg ^^^ 0xFFFFFFFF#32)] } ∧
    exec .rdBucketTtl s = .next { s with replies := s.replies ++ [.value s.bucketTtl] } ∧
    exec .rdDiscTimeout s = .next { s with replies := s.replies ++ [.value s.discTimeout] } ∧
    exec .rdLastSeq s = .next { s with replies := s.replies ++ [.value s.lastSeq] } ∧
    exec .rdLastLen s = .next { s with replies := s.replies ++ [.value (BitVec.ofNat 32 s.lastMsg.length)] } ∧
    exec .rdConfig s = .next { s with replies := s.replies ++ [.value (configWord s.cfg)] } ∧
    exec (.rdLastData off) s =
      .next { s with replies := s.replies ++ [.value (lastDataWord s.lastMsg (off.toNat - 0x4000))] } ∧
    exec (.rdMisaligned off) s = .next { s with replies := s.replies ++ [.value 0x00000000#32] } ∧
    exec (.rdReserved off) s = .next { s with replies := s.replies ++ [.value 0x00000000#32] }

/-- R34 and R40: the fields of STATUS and CONFIG stand at their bits, and the reserved bits of STATUS are 0. -/
def Obligations.StatusAndConfigFields : Prop :=
  ∀ s : State, s.bucketsUsed ≤ 255 → s.txq.length ≤ 65535 →
    (statusWord s).getLsbD 0 = s.en ∧
    (statusWord s).getLsbD 1 = s.cmdErr ∧
    (statusWord s).extractLsb' 2 2 =
      (match s.discState with | .idle => 0#2 | .wait => 1#2 | .ok => 2#2 | .fail => 3#2) ∧
    (statusWord s).getLsbD 4 = s.discPending ∧
    (statusWord s).extractLsb' 5 3 = 0#3 ∧
    ((statusWord s).extractLsb' 8 8).toNat = s.bucketsUsed ∧
    ((statusWord s).extractLsb' 16 16).toNat = s.txq.length ∧
    (configWord s.cfg).extractLsb' 0 8 = s.cfg.nb ∧
    (configWord s.cfg).extractLsb' 8 8 = s.cfg.maxFrag ∧
    (configWord s.cfg).extractLsb' 16 16 = s.cfg.txqMax

/-- R254 (which the spec marks as derived) with R52: the words read from the LAST_DATA window, as many as LAST_LEN asks for, give the last message
whole. -/
def Obligations.LastMessageReadsBackWhole : Prop :=
  ∀ s : State, s.lastMsg.length ≤ 16384 →
    ((List.range (ceilDiv s.lastMsg.length 4)).flatMap fun j =>
      le32 (readReg (BitVec.ofNat 15 (0x4000 + 4 * j)) s)).take s.lastMsg.length = s.lastMsg

/-- R62: no register reaches the slots or the queued messages. With other contents of the same counts, and another wait
count, every read answers the same; no write touches them, but for the SOFT_RESET command, which empties both. -/
def Obligations.InternalStorageIsInvisible : Prop :=
  (∀ (s t : State) (off : Offset),
    t = { s with slots := t.slots, txq := t.txq, discWait := t.discWait } →
    t.bucketsUsed = s.bucketsUsed → t.txq.length = s.txq.length →
      ∃ x, exec (.regRead off) s = .next { s with replies := s.replies ++ [.value x] } ∧
        exec (.regRead off) t = .next { t with replies := t.replies ++ [.value x] }) ∧
  (∀ (s : State) (off : Offset) (v : Word), ∃ u, exec (.regWrite off v) s = .next u ∧
    ((u.slots = s.slots ∧ u.txq = s.txq) ∨ (off = 0x0000#15 ∧ cmdOpc v = 0x05#8 ∧ u.buckets = [] ∧ u.txq = [])))

/-- R201 with R53, R54 and R55: a register write acts by its offset; misaligned, reserved and read-only offsets are
ignored, the window too. -/
def Obligations.RegWriteActsByItsOffset : Prop :=
  ∀ (off : Offset) (v : Word) (s : State),
    (off.toNat = 0x0000 → exec (.regWrite off v) s = exec (.wrCmd v) s) ∧
    (off.toNat = 0x0004 → exec (.regWrite off v) s = .next { s with cmdErr := s.cmdErr && !v.getLsbD 1 }) ∧
    (off.toNat = 0x0008 → exec (.regWrite off v) s = .next { s with dstAddr := v.extractLsb' 0 8 }) ∧
    (off.toNat = 0x0010 → exec (.regWrite off v) s = .next { s with bucketTtl := v }) ∧
    (off.toNat = 0x0014 → exec (.regWrite off v) s = .next { s with discTimeout := v }) ∧
    (off.toNat ≠ 0x0000 → off.toNat ≠ 0x0004 → off.toNat ≠ 0x0008 → off.toNat ≠ 0x0010 → off.toNat ≠ 0x0014 →
      exec (.regWrite off v) s = .next s)

/-- R203, R204, R206, R207: what the writable registers take; R52 to R55: what is ignored. -/
def Obligations.WriteRowsWriteTheirRegister : Prop :=
  ∀ (v : Word) (off : Offset) (s : State),
    exec (.wrStatus v) s = .next { s with cmdErr := s.cmdErr && !v.getLsbD 1 } ∧
    exec (.wrAddr v) s = .next { s with dstAddr := v.extractLsb' 0 8 } ∧
    exec (.wrBucketTtl v) s = .next { s with bucketTtl := v } ∧
    exec (.wrDiscTimeout v) s = .next { s with discTimeout := v } ∧
    exec (.wrCrcResult v) s = .next s ∧ exec (.wrLastSeq v) s = .next s ∧ exec (.wrLastLen v) s = .next s ∧
    exec (.wrConfig v) s = .next s ∧ exec (.wrLastData off v) s = .next s ∧
    exec (.wrMisaligned off v) s = .next s ∧ exec (.wrReserved off v) s = .next s

/-! ### Commands -/

/-- The pseudocode of R212 to R217: the effect of each command and all it changes, whatever ARG and the ignored bits
are. -/
def Obligations.CommandsHaveTheirEffect : Prop :=
  ∀ (opc arg : Byte) (hi : Half) (s : State),
    exec (.nop arg hi) s = .next s ∧
    exec (.start arg hi) s = .next { s with en := true } ∧
    exec (.stop arg hi) s = .next { s with en := false } ∧
    exec (.softReset arg hi) s = .next { s with
      txq := [], slots := List.replicate s.slots.length none, lastMsg := [], lastSeq := 0#32,
      discState := .idle, discPending := false, discWait := 0#32, cmdErr := false } ∧
    exec (.discStart arg hi) s = .next { s with discState := .wait, discPending := true, discWait := 0#32 } ∧
    exec (.cmdReserved opc arg hi) s = .next { s with cmdErr := true }

/-- R211: a write to CMD performs the command of its low byte; CRC_BYTE takes bits 15:8; bits 31:16 are ignored. -/
def Obligations.WriteToCmdDispatchesByOpcode : Prop :=
  ∀ (v : Word) (s : State),
    exec (.wrCmd v) s =
      if v.toNat % 256 = 0x00 then .next s
      else if v.toNat % 256 = 0x01 then .next { s with crcReg := 0xFFFFFFFF#32 }
      else if v.toNat % 256 = 0x02 then .next { s with crcReg := crcStep s.crcReg (v.extractLsb' 8 8) }
      else if v.toNat % 256 = 0x03 then .next { s with en := true }
      else if v.toNat % 256 = 0x04 then .next { s with en := false }
      else if v.toNat % 256 = 0x05 then exec (.softReset 0#8 0#16) s
      else if v.toNat % 256 = 0x06 then exec (.discStart 0#8 0#16) s
      else .next { s with cmdErr := true }

/-! ### Rules over the whole machine -/

/-- R24: `cmd_err` is set by a command word with a reserved opcode and by nothing else, and cleared by writing 1 to
STATUS.CMD_ERR, by SOFT_RESET and by RESET and by nothing else. -/
def Obligations.CmdErrMovesOnlyByItsRules : Prop :=
  ∀ (i : Instr) (s t : State), i.wellFormed = true → exec i s = .next t →
    ((IsCommand i fun opc => 0x07 ≤ opc.toNat) → t.cmdErr = true) ∧
    (s.cmdErr = false → t.cmdErr = true → IsCommand i fun opc => 0x07 ≤ opc.toNat) ∧
    ((i.toEvent = .reset ∨ (∃ v, i.toEvent = .regWrite 0x0004#15 v ∧ v.getLsbD 1 = true) ∨
      IsCommand i fun opc => opc = 0x05#8) → t.cmdErr = false) ∧
    (s.cmdErr = true → t.cmdErr = false →
      i.toEvent = .reset ∨ (∃ v, i.toEvent = .regWrite 0x0004#15 v ∧ v.getLsbD 1 = true) ∨
      IsCommand i fun opc => opc = 0x05#8)

/-- R23 and R242: nothing wakes the block but START, and nothing stops it but STOP or RESET (whose value R44 gives). -/
def Obligations.RunFlagMovesOnlyByStartStopReset : Prop :=
  ∀ (i : Instr) (s t : State), i.wellFormed = true → exec i s = .next t →
    (s.en = false → t.en = true → IsCommand i fun opc => opc = 0x03#8) ∧
    (s.en = true → t.en = false → i.toEvent = .reset ∨ IsCommand i fun opc => opc = 0x04#8)

/-- R25 to R28 and R40: outside RESET, the accumulator moves only by CRC_INIT and CRC_BYTE, the destination address,
the time-to-live and the timeout only by a write of their register; the parameters never move. -/
def Obligations.SettingsMoveOnlyByTheirWrites : Prop :=
  ∀ (i : Instr) (s t : State), i.wellFormed = true → exec i s = .next t →
    t.cfg = s.cfg ∧
    (i.toEvent = .reset ∨
      ((t.crcReg ≠ s.crcReg → IsCommand i fun opc => opc = 0x01#8 ∨ opc = 0x02#8) ∧
       (t.dstAddr ≠ s.dstAddr → ∃ v, i.toEvent = .regWrite 0x0008#15 v) ∧
       (t.bucketTtl ≠ s.bucketTtl → ∃ v, i.toEvent = .regWrite 0x0010#15 v) ∧
       (t.discTimeout ≠ s.discTimeout → ∃ v, i.toEvent = .regWrite 0x0014#15 v)))

/-- R65 (which the spec marks as derived) and R250 ("Frames and messages already emitted stay emitted"): what has crossed
a port stays. One event adds to `tx_raw` frames of 64 bytes, at most one discovery request (preamble 0x0002), at most 255
data frames (preamble 0x0001) and no other; to `msg_rx` at most one message, of `50 * n` bytes with `1 <= n <= P_MAXFRAG`;
to `rx_raw` at most one block, not empty (entry 16); and at most one answer (entry 8). -/
def Obligations.OneEventAddsBoundedOutput : Prop :=
  ∀ (i : Instr) (s t : State), s.Inv → exec i s = .next t →
    (∃ sent, t.txRaw = s.txRaw ++ sent ∧
      (∀ b ∈ sent, b.length = 64 ∧ (getLe16 b 0 = 0x0002#16 ∨ getLe16 b 0 = 0x0001#16)) ∧
      (sent.filter fun b => getLe16 b 0 == 0x0002#16).length ≤ 1 ∧
      (sent.filter fun b => getLe16 b 0 == 0x0001#16).length ≤ 255) ∧
    (∃ got, t.msgRx = s.msgRx ++ got ∧ got.length ≤ 1 ∧
      ∀ m ∈ got, ∃ n, 1 ≤ n ∧ n ≤ s.cfg.maxFrag.toNat ∧ m.length = 50 * n) ∧
    (∃ read, t.rxRaw = s.rxRaw ++ read ∧ read.length ≤ 1 ∧ [] ∉ read) ∧
    (∃ said, t.replies = s.replies ++ said ∧ said.length ≤ 1)

/-! ### Invariants -/

/-- The invariant of R42 (which the spec marks as derived) holds after RESET, for any legal parameters, and of the machine's own reset state. -/
def Obligations.InvariantHoldsAfterReset : Prop :=
  (∀ cfg : Config.Params, cfg.legal = true → (State.resetOf cfg).Inv) ∧ State.reset.Inv

/-- R42 ("Every event keeps these true", which the spec marks as derived), with the bounds of R30 to R32 and R63: every
event keeps the invariant. -/
def Obligations.StepKeepsInvariant : Prop :=
  ∀ s t : State, s.Inv → step s = .next t → t.Inv

/-- R233: no sequence of events reaches the model fault; every state a run reaches meets the invariant. -/
def Obligations.ReachableStatesAreSafe : Prop :=
  ∀ s : State, Reachable s → s.Inv ∧ step s ≠ .fault .encOversize

/-! ### Instances and traces -/

/-- R240, on several engines as a list stepped one at a time (entry 18): an event of one instance leaves every other instance as it was, and is that instance's own step. -/
def Obligations.InstancesShareNothing : Prop :=
  ∀ (k : Nat) (engines after : List State), stepInstance k engines = .next after →
    after.length = engines.length ∧ (∀ j, j ≠ k → after[j]? = engines[j]?) ∧
    (∀ s, engines[k]? = some s → ∃ t, step s = .next t ∧ after[k]? = some t)

/-- R85: the pseudo-instructions expand to the register writes of the rule, which are the commands they name. -/
def Obligations.PseudoInstructionsExpand : Prop :=
  TraceLine.start.events = [(Instr.start 0#8 0#16).toEvent] ∧
  TraceLine.stop.events = [(Instr.stop 0#8 0#16).toEvent] ∧
  TraceLine.softReset.events = [(Instr.softReset 0#8 0#16).toEvent] ∧
  TraceLine.disc.events = [(Instr.discStart 0#8 0#16).toEvent] ∧
  TraceLine.crcInit.events = [(Instr.crcInit 0#8 0#16).toEvent] ∧
  (∀ bs, (TraceLine.crcBytes bs).events = bs.map fun c => (Instr.crcByte c 0#16).toEvent) ∧
  TraceLine.clrErr.events = [(Instr.wrStatus 0x00000002#32).toEvent]

/-! ### Addresses -/

/-- R10 and R73 give the kinds of address; R155 lets a valid data frame through only at the host's, so one at a broadcast,
device or unassigned address is dropped; R170: the source address plays no part. -/
def Obligations.ReceptionIsByDestinationAddress : Prop :=
  (∀ a : Byte, (a.toNat = 0x00 → addressKind a = .broadcast) ∧ (a.toNat = 0x01 → addressKind a = .host) ∧
    (0x02 ≤ a.toNat → a.toNat ≤ 0x7F → addressKind a = .device) ∧ (0x80 ≤ a.toNat → addressKind a = .unassigned)) ∧
  (∀ (rx : List Byte) (f : Frame) (s : State), Frame.decode rx = .ok f → isValid f = .ok true →
    f.preamble = 0x0001#16 → addressKind f.dest ≠ .host → deframe rx s = .ok (.dest, s)) ∧
  (∀ (f : Frame) (src : Byte) (s : State) (here there : List Byte), encodeFrame f = .ok here →
    encodeFrame { f with src := src } = .ok there → deframe there s = deframe here s)
end

