-- ==== Sys2Proof/Laws/Bytes.lean ====
section
/-! SUPPORT. Byte order, the command word, the register key and the frame layout: what each function does, said once. -/

namespace Sys2Proof

/-! ### Lengths -/

@[simp] theorem zeros_length (n : Nat) : (zeros n).length = n := by simp [zeros]

@[simp] theorem le16_length (v : Half) : (le16 v).length = 2 := rfl

@[simp] theorem le32_length (v : Word) : (le32 v).length = 4 := rfl

theorem slice_length (b : List Byte) (i j : Nat) : (slice b i j).length = min j b.length - i := by
  simp [slice]

/-! ### Byte access -/

theorem byteAt_of_ge {b : List Byte} {i : Nat} (h : b.length ≤ i) : byteAt b i = 0#8 := by
  simp [byteAt, h]

theorem byteAt_of_lt {b : List Byte} {i : Nat} (h : i < b.length) : byteAt b i = b[i] := by
  simp [byteAt, List.getElem?_eq_getElem h]

@[simp] theorem byteAt_cons_zero (x : Byte) (b : List Byte) : byteAt (x :: b) 0 = x := rfl

@[simp] theorem byteAt_cons_succ (x : Byte) (b : List Byte) (i : Nat) : byteAt (x :: b) (i + 1) = byteAt b i := rfl

theorem byteAt_append_left {a b : List Byte} {i : Nat} (h : i < a.length) : byteAt (a ++ b) i = byteAt a i := by
  simp [byteAt, List.getElem?_append_left h]

theorem byteAt_append_right {a b : List Byte} {i : Nat} (h : a.length ≤ i) :
    byteAt (a ++ b) i = byteAt b (i - a.length) := by
  simp [byteAt, List.getElem?_append_right h]

/-- Two sequences of one length with the same bytes are equal. -/
theorem ext_byteAt {a b : List Byte} (hl : a.length = b.length) (h : ∀ i < a.length, byteAt a i = byteAt b i) :
    a = b := by
  apply List.ext_getElem hl
  intro i h1 h2
  rw [← byteAt_of_lt h1, ← byteAt_of_lt h2, h i h1]

theorem byteAt_slice {b : List Byte} {i j k : Nat} (h : i + k < j) : byteAt (slice b i j) k = byteAt b (i + k) := by
  simp [byteAt, slice, h]

/-! ### Words (R13, R56) -/

/-- The word of four bytes, the lowest first. -/
def word4 (a b c d : Byte) : Word :=
  a.setWidth 32 ||| (b.setWidth 32 <<< 8) ||| (c.setWidth 32 <<< 16) ||| (d.setWidth 32 <<< 24)

/-- The half word of two bytes, the lowest first. -/
def half2 (a b : Byte) : Half := a.setWidth 16 ||| (b.setWidth 16 <<< 8)

theorem getLe32_eq (b : List Byte) (i : Nat) :
    getLe32 b i = word4 (byteAt b i) (byteAt b (i + 1)) (byteAt b (i + 2)) (byteAt b (i + 3)) := rfl

theorem getLe16_eq (b : List Byte) (i : Nat) : getLe16 b i = half2 (byteAt b i) (byteAt b (i + 1)) := rfl

theorem word4_extract (v : Word) :
    word4 (v.extractLsb' 0 8) (v.extractLsb' 8 8) (v.extractLsb' 16 8) (v.extractLsb' 24 8) = v := by
  unfold word4
  ext i hi
  interval_cases i <;> simp

theorem half2_extract (v : Half) : half2 (v.extractLsb' 0 8) (v.extractLsb' 8 8) = v := by
  unfold half2
  ext i hi
  interval_cases i <;> simp

theorem le32_word4 (a b c d : Byte) : le32 (word4 a b c d) = [a, b, c, d] := by
  unfold word4 le32
  simp only [List.cons.injEq, and_true]
  refine ⟨?_, ?_, ?_, ?_⟩ <;> (ext i hi; interval_cases i <;> simp)

theorem le16_half2 (a b : Byte) : le16 (half2 a b) = [a, b] := by
  unfold half2 le16
  simp only [List.cons.injEq, and_true]
  refine ⟨?_, ?_⟩ <;> (ext i hi; interval_cases i <;> simp)

theorem le32_getLe32 (b : List Byte) (i : Nat) :
    le32 (getLe32 b i) = [byteAt b i, byteAt b (i + 1), byteAt b (i + 2), byteAt b (i + 3)] := by
  rw [getLe32_eq, le32_word4]

theorem le16_getLe16 (b : List Byte) (i : Nat) : le16 (getLe16 b i) = [byteAt b i, byteAt b (i + 1)] := by
  rw [getLe16_eq, le16_half2]

theorem getLe32_le32 (v : Word) (rest : List Byte) : getLe32 (le32 v ++ rest) 0 = v := by
  rw [getLe32_eq]
  exact word4_extract v

theorem getLe16_le16 (v : Half) (rest : List Byte) : getLe16 (le16 v ++ rest) 0 = v := by
  rw [getLe16_eq]
  exact half2_extract v

theorem getLe32_append_right {a b : List Byte} {i : Nat} (h : a.length ≤ i) :
    getLe32 (a ++ b) i = getLe32 b (i - a.length) := by
  rw [getLe32_eq, getLe32_eq, byteAt_append_right h, byteAt_append_right (by omega), byteAt_append_right (by omega),
    byteAt_append_right (by omega), show i + 1 - a.length = i - a.length + 1 by omega,
    show i + 2 - a.length = i - a.length + 2 by omega, show i + 3 - a.length = i - a.length + 3 by omega]

/-! ### The command word (R76) -/

@[simp] theorem cmdOpc_cmdWord (opc arg : Byte) (hi : Half) : cmdOpc (cmdWord opc arg hi) = opc := by
  unfold cmdOpc cmdWord
  ext i h
  interval_cases i <;> simp

@[simp] theorem cmdArg_cmdWord (opc arg : Byte) (hi : Half) : cmdArg (cmdWord opc arg hi) = arg := by
  unfold cmdArg cmdWord
  ext i h
  interval_cases i <;> simp

@[simp] theorem cmdHi_cmdWord (opc arg : Byte) (hi : Half) : cmdHi (cmdWord opc arg hi) = hi := by
  unfold cmdHi cmdWord
  ext i h
  interval_cases i <;> simp

theorem cmdWord_eta (v : Word) : cmdWord (cmdOpc v) (cmdArg v) (cmdHi v) = v := by
  unfold cmdWord cmdOpc cmdArg cmdHi
  ext i h
  interval_cases i <;> simp

/-! ### The register key (R79) -/

@[simp] theorem keyDir_regKey (dir : Bool) (off : Offset) : keyDir (regKey dir off) = dir := by
  unfold keyDir regKey
  cases dir <;> simp

@[simp] theorem keyOff_regKey (dir : Bool) (off : Offset) : keyOff (regKey dir off) = off := by
  unfold keyOff regKey
  ext i h
  cases dir <;> interval_cases i <;> simp

theorem regKey_eta (key : Half) : regKey (keyDir key) (keyOff key) = key := by
  unfold keyDir keyOff regKey
  ext i h
  interval_cases i <;> simp

theorem aligned_iff (off : Offset) : off.extractLsb' 0 2 = 0#2 ↔ off.toNat % 4 = 0 := by
  rw [← BitVec.toNat_inj]
  simp

theorem inWindow_iff (off : Offset) : off.getLsbD 14 = true ↔ 0x4000 ≤ off.toNat := by
  rw [BitVec.getLsbD, Nat.testBit_eq_decide_div_mod_eq]
  have := off.isLt
  simp
  omega

/-! ### The frame layout (R70, R71) -/

theorem toWire_length (f : Frame) : f.toWire.length = 14 + f.payload.length := by
  simp [Frame.toWire]
  omega

/-- Reading back the bytes of a frame with a 50-byte payload gives the frame. -/
theorem decode_toWire {f : Frame} (h : f.payload.length = 50) : Frame.decode f.toWire = .ok f := by
  have hl : f.toWire.length = Config.frameLen := by rw [toWire_length, h]; rfl
  have hcrc : getLe32 f.toWire 60 = f.crc := by
    unfold Frame.toWire
    rw [getLe32_append_right (by simp [h])]
    simp only [List.length_append, le16_length, le32_length, List.length_cons, List.length_nil, h]
    simpa using getLe32_le32 f.crc []
  have hpay : slice f.toWire 10 60 = f.payload := by
    simp [slice, Frame.toWire, le16, le32, h]
  unfold Frame.decode
  rw [if_neg (by simp [hl]), hcrc, hpay]
  simp [Frame.toWire, le16, le32, getLe16_eq, getLe32_eq, half2_extract, word4_extract]

/-- Every byte of a 64-byte block is kept by decoding it. -/
theorem toWire_of_decode {b : List Byte} {f : Frame} (h : Frame.decode b = .ok f) :
    f.toWire = b ∧ b.length = 64 ∧ f.payload.length = 50 := by
  unfold Frame.decode at h
  split at h
  · cases h
  · rename_i hl
    simp only [ne_eq, Decidable.not_not, Config.frameLen] at hl
    cases h
    have hp : (slice b 10 60).length = 50 := by simp [slice_length, hl]
    refine ⟨ext_byteAt ?_ ?_, hl, hp⟩
    · simp [Frame.toWire, hp, hl]
    · intro i hi
      simp only [Frame.toWire, le16_getLe16, le32_getLe32] at hi ⊢
      simp [hp] at hi
      rcases lt_or_ge i 10 with h1 | h1
      · interval_cases i <;> simp
      · rcases lt_or_ge i 60 with h2 | h2
        · rw [byteAt_append_left (by simp [hp]; omega), byteAt_append_right (by simp; omega)]
          simp only [List.length_append, List.length_cons, List.length_nil]
          rw [byteAt_slice (by omega)]
          congr 1
          omega
        · rw [byteAt_append_right (by simp [hp]; omega)]
          simp only [List.length_append, List.length_cons, List.length_nil, hp]
          interval_cases i <;> simp

theorem decode_length {b : List Byte} {f : Frame} (h : Frame.decode b = .ok f) : b.length = 64 :=
  (toWire_of_decode h).2.1

theorem decode_of_length {b : List Byte} (h : b.length = 64) : ∃ f, Frame.decode b = .ok f := by
  unfold Frame.decode
  rw [if_neg (by simp [h, Config.frameLen])]
  exact ⟨_, rfl⟩

theorem decode_of_length_ne {b : List Byte} (h : b.length ≠ 64) : Frame.decode b = .error .frameLength := by
  unfold Frame.decode
  rw [if_pos (by simpa [Config.frameLen] using h)]

end Sys2Proof
end

