-- ==== Sys2Proof/Laws/Crc.lean ====
section
/-! SUPPORT. CRC-32: one step loses nothing (it is injective in the register and in the byte) and is linear. -/

namespace Sys2Proof.Machine

theorem crcBit_top (c : Word) : (crcBit c).getLsbD 31 = c.getLsbD 0 := by
  unfold crcBit
  cases h : c.getLsbD 0 <;> simp [crcPoly]

theorem crcBit_injective {c d : Word} (h : crcBit c = crcBit d) : c = d := by
  have h0 : c.getLsbD 0 = d.getLsbD 0 := by rw [← crcBit_top, ← crcBit_top, h]
  have hs : c >>> 1 = d >>> 1 := by
    unfold crcBit at h
    rw [h0] at h
    split at h
    · exact (BitVec.xor_left_inj crcPoly).mp h
    · exact h
  apply BitVec.eq_of_getLsbD_eq
  intro i hi
  rcases Nat.eq_zero_or_pos i with rfl | hp
  · exact h0
  · have := congrArg (fun x => BitVec.getLsbD x (i - 1)) hs
    simpa [BitVec.getLsbD_ushiftRight, show 1 + (i - 1) = i by omega] using this

theorem crcBits_injective {n : Nat} {c d : Word} (h : crcBits n c = crcBits n d) : c = d := by
  induction n generalizing c d with
  | zero => exact h
  | succ n ih => exact crcBit_injective (ih h)

theorem crcStep_injective_register {c c' : Word} {d : Byte} (h : crcStep c d = crcStep c' d) : c = c' := by
  exact (BitVec.xor_left_inj (d.setWidth 32)).mp (crcBits_injective h)

theorem crcStep_injective_byte {c : Word} {d d' : Byte} (h : crcStep c d = crcStep c d') : d = d' := by
  have h1 : d.setWidth 32 = d'.setWidth 32 := (BitVec.xor_right_inj c).mp (crcBits_injective h)
  simpa using congrArg (BitVec.setWidth 8) h1

@[simp] theorem crcFeed_nil (c : Word) : crcFeed c [] = c := rfl

@[simp] theorem crcFeed_cons (c : Word) (d : Byte) (bs : List Byte) :
    crcFeed c (d :: bs) = crcFeed (crcStep c d) bs := rfl

theorem crcFeed_append (c : Word) (a b : List Byte) : crcFeed c (a ++ b) = crcFeed (crcFeed c a) b := by
  induction a generalizing c with
  | nil => rfl
  | cons d a ih => exact ih (crcStep c d)

theorem crcFeed_injective_register {c c' : Word} {bs : List Byte} (h : crcFeed c bs = crcFeed c' bs) : c = c' := by
  induction bs generalizing c c' with
  | nil => exact h
  | cons d bs ih => exact crcStep_injective_register (ih h)

theorem crcFinal_injective {c c' : Word} (h : crcFinal c = crcFinal c') : c = c' :=
  (BitVec.xor_left_inj _).mp h

/-- The CRC's registers agree when the CRCs do. -/
theorem crc32_eq_iff (a b : List Byte) :
    crc32 a = crc32 b ↔ crcFeed crcInitial a = crcFeed crcInitial b :=
  ⟨fun h => crcFinal_injective h, fun h => by unfold crc32; rw [h]⟩

theorem crcBit_xor (a b : Word) : crcBit (a ^^^ b) = crcBit a ^^^ crcBit b := by
  unfold crcBit
  rw [BitVec.getLsbD_xor, BitVec.ushiftRight_xor_distrib]
  cases ha : a.getLsbD 0 <;> cases hb : b.getLsbD 0 <;> simp
  · rw [BitVec.xor_assoc]
  · rw [BitVec.xor_assoc, BitVec.xor_comm (b >>> 1), BitVec.xor_assoc]
  · rw [BitVec.xor_assoc, ← BitVec.xor_assoc crcPoly, BitVec.xor_comm crcPoly, BitVec.xor_assoc (b >>> 1),
      BitVec.xor_self, BitVec.xor_zero]

theorem crcBits_xor (n : Nat) (a b : Word) : crcBits n (a ^^^ b) = crcBits n a ^^^ crcBits n b := by
  induction n generalizing a b with
  | zero => rfl
  | succ n ih => simp only [crcBits, crcBit_xor, ih]

/-- A register whose low bit is 0 only shifts. -/
theorem crcBit_even {c : Word} (h : c.getLsbD 0 = false) : crcBit c = c >>> 1 := by
  unfold crcBit
  rw [h]
  rfl

/-- A register whose low `n` bits are 0 only shifts for `n` bits. -/
theorem crcBits_shift {n : Nat} {c : Word} (h : ∀ i < n, c.getLsbD i = false) : crcBits n c = c >>> n := by
  induction n generalizing c with
  | zero => simp [crcBits]
  | succ n ih =>
    rw [crcBits, crcBit_even (h 0 (by omega)), ih, ← BitVec.shiftRight_add, Nat.add_comm]
    intro i hi
    rw [BitVec.getLsbD_ushiftRight]
    exact h (1 + i) (by omega)

end Sys2Proof.Machine
end

