-- ==== Sys2Proof/Laws/Codec.lean ====
section
/-! SUPPORT. The codec: what `encodeFrame`, `isValid` and `encodeAll` answer, said once. -/

namespace Sys2Proof.Machine

/-- The bytes `encode` gives for a payload that fits. -/
def wireOf (f : Frame) : List Byte := frameBody f ++ le32 (crc32 (frameBody f))

theorem frameBody_length {f : Frame} (h : f.payload.length ≤ 50) : (frameBody f).length = 60 := by
  simp [frameBody, Config.payloadLen]
  omega

theorem wireOf_length {f : Frame} (h : f.payload.length ≤ 50) : (wireOf f).length = 64 := by
  simp [wireOf, frameBody_length h]

theorem encodeFrame_ok {f : Frame} (h : f.payload.length ≤ 50) : encodeFrame f = .ok (wireOf f) := by
  unfold encodeFrame
  rw [if_neg (by simpa [Config.payloadLen] using h)]
  rfl

theorem slice_wireOf {f : Frame} (h : f.payload.length ≤ 50) : slice (wireOf f) 0 60 = frameBody f := by
  simp [slice, wireOf, frameBody_length h]

/-- `isValid` never faults on a frame whose payload fits. -/
theorem isValid_ok {f : Frame} (h : f.payload.length ≤ 50) : isValid f = .ok (crc32 (frameBody f) == f.crc) := by
  unfold isValid
  rw [encodeFrame_ok h]
  simp only [Config.crcSpan]
  rw [slice_wireOf h]

theorem isValid_of_decode {b : List Byte} {f : Frame} (h : Frame.decode b = .ok f) :
    isValid f = .ok (crc32 (frameBody f) == f.crc) :=
  isValid_ok (by rw [(toWire_of_decode h).2.2])

/-- A full frame's wire bytes are its body and its stored CRC. -/
theorem toWire_eq_body {f : Frame} (h : f.payload.length = 50) : f.toWire = frameBody f ++ le32 f.crc := by
  simp [Frame.toWire, frameBody, Config.payloadLen, h, zeros]

/-- The encoding is the wire form of the frame with its payload padded and its CRC computed. -/
theorem wireOf_eq_toWire (f : Frame) :
    wireOf f = Frame.toWire { f with payload := f.payload ++ zeros (50 - f.payload.length),
                                     crc := crc32 (frameBody f) } := by
  simp [wireOf, Frame.toWire, frameBody, Config.payloadLen]

/-- The first two bytes of an encoding are the preamble (R70). -/
theorem getLe16_wireOf (f : Frame) : getLe16 (wireOf f) 0 = f.preamble := by
  simpa [wireOf, frameBody] using getLe16_le16 f.preamble _

/-- Padding changes nothing in the body. -/
theorem frameBody_padded {f : Frame} (h : f.payload.length ≤ 50) (c : Word) :
    frameBody { f with payload := f.payload ++ zeros (50 - f.payload.length), crc := c } = frameBody f := by
  simp [frameBody, Config.payloadLen, zeros]
  omega

theorem encodeAll_ok {fs : List Frame} (h : ∀ f ∈ fs, f.payload.length ≤ 50) : encodeAll fs = .ok (fs.map wireOf) := by
  induction fs with
  | nil => rfl
  | cons f fs ih =>
    unfold encodeAll
    rw [encodeFrame_ok (h f (by simp)), ih fun g hg => h g (by simp [hg])]
    rfl

/-- The body of a received frame is the first 60 bytes of its block, its stored CRC the last four (R71). -/
theorem body_of_decode {b : List Byte} {f : Frame} (h : Frame.decode b = .ok f) :
    frameBody f = slice b 0 60 ∧ f.crc = getLe32 b 60 := by
  obtain ⟨hw, hl, hp⟩ := toWire_of_decode h
  rw [toWire_eq_body hp] at hw
  have hb := frameBody_length (f := f) (by omega)
  constructor
  · rw [← hw]
    simp [slice, hb]
  · rw [← hw, getLe32_append_right (by omega), hb]
    simpa using (getLe32_le32 f.crc []).symm

end Sys2Proof.Machine
end

