-- ==== Sys2Proof/Laws/Decode.lean ====
section
/-! SUPPORT. The decoder on what the encoder's helpers give, and the classes of register offsets (R79), said once. -/

namespace Sys2Proof

theorem getLe32_le32_self (v : Word) : getLe32 (le32 v) 0 = v := by simpa using getLe32_le32 v []

theorem getLe16_le16_self (v : Half) : getLe16 (le16 v) 0 = v := by simpa using getLe16_le16 v []

theorem getLe32_after_le16 (k : Half) (v : Word) : getLe32 (le16 k ++ le32 v) 2 = v := by
  rw [getLe32_append_right (by simp)]
  simpa using getLe32_le32_self v

theorem decode_encodeRead (off : Offset) : decode (encodeRead off) = .ok (decodeRead off) := by
  simp [decode, encodeRead, decodeReg, getLe16_le16_self]

theorem decode_encodeWrite (off : Offset) (v : Word) : decode (encodeWrite off v) = .ok (decodeWrite off v) := by
  simp [decode, encodeWrite, decodeReg, getLe16_le16, getLe32_after_le16]

theorem decode_encodeCmd (opc arg : Byte) (hi : Half) :
    decode (encodeCmd opc arg hi) = .ok (decodeCmd (cmdWord opc arg hi)) := by
  simp [decode, encodeCmd, getLe32_le32_self]

theorem decode_frameTransfer {f : Frame} (h : f.payload.length = 50) : decode ⟨.frame, f.toWire⟩ = .ok (frameRow f) := by
  simp [decode, decode_toWire h, Except.map]

/-- Only 0x01 is the host's address (R10, R73). -/
theorem addressKind_eq_host_iff (a : Byte) : addressKind a = .host ↔ a = Config.addrHost := by
  unfold addressKind
  split
  · rename_i h
    subst h
    decide
  · split <;> rename_i h
    · simp [h]
    · split <;> simp [h]

/-- A reserved offset is none of the numbers below 0x0024. -/
theorem reserved_ne {off : Offset} (h : off.reserved = true) {k : Offset} (hk : k.toNat < 0x0024) : off ≠ k := by
  rintro rfl
  simp only [Offset.reserved, Bool.and_eq_true, decide_eq_true_eq] at h
  omega

/-- R79: every offset is misaligned, in the window, one of the nine registers, or reserved. -/
theorem offset_cases (off : Offset) :
    off.extractLsb' 0 2 ≠ 0#2 ∨ (off.extractLsb' 0 2 = 0#2 ∧ off.getLsbD 14 = true) ∨
    off ∈ [0x0000#15, 0x0004#15, 0x0008#15, 0x000C#15, 0x0010#15, 0x0014#15, 0x0018#15, 0x001C#15, 0x0020#15] ∨
    off.reserved = true := by
  by_cases h1 : off.extractLsb' 0 2 = 0#2
  · by_cases h2 : off.getLsbD 14 = true
    · exact .inr (.inl ⟨h1, h2⟩)
    · refine .inr (.inr ?_)
      have ha := (aligned_iff off).mp h1
      simp only [Offset.reserved, Offset.aligned, Offset.inWindow, h1, Bool.not_eq_true _ |>.mp h2, beq_self_eq_true,
        Bool.not_false, Bool.and_self, Bool.true_and, decide_eq_true_eq]
      by_cases h3 : 0x0024 ≤ off.toNat
      · exact .inr h3
      · left
        have h4 : off = BitVec.ofNat 15 (4 * (off.toNat / 4)) := by
          apply BitVec.eq_of_toNat_eq
          rw [BitVec.toNat_ofNat]
          omega
        rw [h4]
        have h5 : off.toNat / 4 < 9 := by omega
        generalize off.toNat / 4 = n at h5
        interval_cases n <;> simp
  · exact .inl h1

theorem decodeRead_misaligned {off : Offset} (h : off.extractLsb' 0 2 ≠ 0#2) : decodeRead off = .rdMisaligned off := by
  unfold decodeRead
  rw [if_pos h]

theorem decodeWrite_misaligned {off : Offset} (h : off.extractLsb' 0 2 ≠ 0#2) (v : Word) :
    decodeWrite off v = .wrMisaligned off v := by
  unfold decodeWrite
  rw [if_pos h]

theorem decodeRead_window {off : Offset} (h1 : off.extractLsb' 0 2 = 0#2) (h2 : off.getLsbD 14 = true) :
    decodeRead off = .rdLastData off := by
  unfold decodeRead
  rw [if_neg (not_not.mpr h1), if_pos h2]

theorem decodeWrite_window {off : Offset} (h1 : off.extractLsb' 0 2 = 0#2) (h2 : off.getLsbD 14 = true) (v : Word) :
    decodeWrite off v = .wrLastData off v := by
  unfold decodeWrite
  rw [if_neg (not_not.mpr h1), if_pos h2]

theorem reserved_split {off : Offset} (h : off.reserved = true) :
    off.extractLsb' 0 2 = 0#2 ∧ ¬off.getLsbD 14 = true := by
  simp only [Offset.reserved, Offset.aligned, Offset.inWindow, Bool.and_eq_true, beq_iff_eq, Bool.not_eq_true'] at h
  exact ⟨h.1.1, by rw [h.1.2]; exact Bool.false_ne_true⟩

theorem decodeRead_reserved {off : Offset} (h : off.reserved = true) : decodeRead off = .rdReserved off := by
  unfold decodeRead
  rw [if_neg (not_not.mpr (reserved_split h).1), if_neg (reserved_split h).2]
  repeat rw [if_neg (reserved_ne h (by decide))]

theorem decodeWrite_reserved {off : Offset} (h : off.reserved = true) (v : Word) :
    decodeWrite off v = .wrReserved off v := by
  unfold decodeWrite
  rw [if_neg (not_not.mpr (reserved_split h).1), if_neg (reserved_split h).2]
  repeat rw [if_neg (reserved_ne h (by decide))]

end Sys2Proof
end

