-- ==== Sys2Proof/Laws/PerInstr.lean ====
section
/-! SUPPORT. Facts about every instruction as syntax, one lemma per constructor. -/

namespace Sys2Proof.Laws.EncodedForm

/-- The length a transfer of each format has (R81): 64 bytes a frame, 4 a command word, 2 a register read and 6 a
write, an event at least its tag. -/
def lengthOk (t : Transfer) : Prop :=
  match t.format with
  | .event => 1 ≤ t.bytes.length
  | .cmd => t.bytes.length = 4
  | .reg => t.bytes.length = 2 ∨ t.bytes.length = 6
  | .frame => t.bytes.length = 64

/-- A well-formed instruction is encoded in the length of its format. -/
def Statement (i : Instr) : Prop := i.wellFormed = true → lengthOk (encode i)

theorem frame_lengthOk {f : Frame} (h : f.payload.length = 50) : lengthOk ⟨.frame, f.toWire⟩ := by
  simp [lengthOk, toWire_length, h]

theorem reset : Statement .reset := fun _ => by simp [lengthOk, encode]

theorem tick (rx : List Byte) : Statement (.tick rx) := fun _ => by simp [lengthOk, encode]

theorem submit (m : List Byte) : Statement (.submit m) := fun _ => by simp [lengthOk, encode]

theorem regRead (off : Offset) : Statement (.regRead off) := fun _ => by simp [lengthOk, encode]

theorem regWrite (off : Offset) (v : Word) : Statement (.regWrite off v) := fun _ => by simp [lengthOk, encode]

theorem nop (arg : Byte) (hi : Half) : Statement (.nop arg hi) := fun _ => rfl

theorem crcInit (arg : Byte) (hi : Half) : Statement (.crcInit arg hi) := fun _ => rfl

theorem crcByte (arg : Byte) (hi : Half) : Statement (.crcByte arg hi) := fun _ => rfl

theorem start (arg : Byte) (hi : Half) : Statement (.start arg hi) := fun _ => rfl

theorem stop (arg : Byte) (hi : Half) : Statement (.stop arg hi) := fun _ => rfl

theorem softReset (arg : Byte) (hi : Half) : Statement (.softReset arg hi) := fun _ => rfl

theorem discStart (arg : Byte) (hi : Half) : Statement (.discStart arg hi) := fun _ => rfl

theorem cmdReserved (opc arg : Byte) (hi : Half) : Statement (.cmdReserved opc arg hi) := fun _ => rfl

theorem rdCmd : Statement .rdCmd := fun _ => .inl rfl

theorem rdStatus : Statement .rdStatus := fun _ => .inl rfl

theorem rdAddr : Statement .rdAddr := fun _ => .inl rfl

theorem rdCrcResult : Statement .rdCrcResult := fun _ => .inl rfl

theorem rdBucketTtl : Statement .rdBucketTtl := fun _ => .inl rfl

theorem rdDiscTimeout : Statement .rdDiscTimeout := fun _ => .inl rfl

theorem rdLastSeq : Statement .rdLastSeq := fun _ => .inl rfl

theorem rdLastLen : Statement .rdLastLen := fun _ => .inl rfl

theorem rdConfig : Statement .rdConfig := fun _ => .inl rfl

theorem rdLastData (off : Offset) : Statement (.rdLastData off) := fun _ => .inl rfl

theorem rdMisaligned (off : Offset) : Statement (.rdMisaligned off) := fun _ => .inl rfl

theorem rdReserved (off : Offset) : Statement (.rdReserved off) := fun _ => .inl rfl

theorem wrCmd (v : Word) : Statement (.wrCmd v) := fun _ => .inr rfl

theorem wrStatus (v : Word) : Statement (.wrStatus v) := fun _ => .inr rfl

theorem wrAddr (v : Word) : Statement (.wrAddr v) := fun _ => .inr rfl

theorem wrCrcResult (v : Word) : Statement (.wrCrcResult v) := fun _ => .inr rfl

theorem wrBucketTtl (v : Word) : Statement (.wrBucketTtl v) := fun _ => .inr rfl

theorem wrDiscTimeout (v : Word) : Statement (.wrDiscTimeout v) := fun _ => .inr rfl

theorem wrLastSeq (v : Word) : Statement (.wrLastSeq v) := fun _ => .inr rfl

theorem wrLastLen (v : Word) : Statement (.wrLastLen v) := fun _ => .inr rfl

theorem wrConfig (v : Word) : Statement (.wrConfig v) := fun _ => .inr rfl

theorem wrLastData (off : Offset) (v : Word) : Statement (.wrLastData off v) := fun _ => .inr rfl

theorem wrMisaligned (off : Offset) (v : Word) : Statement (.wrMisaligned off v) := fun _ => .inr rfl

theorem wrReserved (off : Offset) (v : Word) : Statement (.wrReserved off v) := fun _ => .inr rfl

theorem frameData (f : Frame) : Statement (.frameData f) :=
  fun h => frame_lengthOk (by simp [Instr.wellFormed, Frame.onWire, Config.payloadLen] at h; exact h.1)

theorem frameDiscReq (f : Frame) : Statement (.frameDiscReq f) :=
  fun h => frame_lengthOk (by simp [Instr.wellFormed, Frame.onWire, Config.payloadLen] at h; exact h.1)

theorem frameDiscRsp (f : Frame) : Statement (.frameDiscRsp f) :=
  fun h => frame_lengthOk (by simp [Instr.wellFormed, Frame.onWire, Config.payloadLen] at h; exact h.1)

theorem frameReserved (f : Frame) : Statement (.frameReserved f) :=
  fun h => frame_lengthOk (by simp [Instr.wellFormed, Frame.onWire, Config.payloadLen] at h; exact h.1.1.1)

end Sys2Proof.Laws.EncodedForm
end

