-- ==== Sys2Proof/Laws/State.lean ====
section
/-! SUPPORT. One lemma per field per named update of State, true by rfl, so that no proof unfolds a record update. -/

namespace Sys2Proof.Machine.State

variable (s : State)

/-! `answer` -/
@[simp] theorem answer_cfg (r : Reply) : (s.answer r).cfg = s.cfg := rfl
@[simp] theorem answer_en (r : Reply) : (s.answer r).en = s.en := rfl
@[simp] theorem answer_cmdErr (r : Reply) : (s.answer r).cmdErr = s.cmdErr := rfl
@[simp] theorem answer_crcReg (r : Reply) : (s.answer r).crcReg = s.crcReg := rfl
@[simp] theorem answer_dstAddr (r : Reply) : (s.answer r).dstAddr = s.dstAddr := rfl
@[simp] theorem answer_bucketTtl (r : Reply) : (s.answer r).bucketTtl = s.bucketTtl := rfl
@[simp] theorem answer_discTimeout (r : Reply) : (s.answer r).discTimeout = s.discTimeout := rfl
@[simp] theorem answer_discState (r : Reply) : (s.answer r).discState = s.discState := rfl
@[simp] theorem answer_discPending (r : Reply) : (s.answer r).discPending = s.discPending := rfl
@[simp] theorem answer_discWait (r : Reply) : (s.answer r).discWait = s.discWait := rfl
@[simp] theorem answer_txq (r : Reply) : (s.answer r).txq = s.txq := rfl
@[simp] theorem answer_slots (r : Reply) : (s.answer r).slots = s.slots := rfl
@[simp] theorem answer_lastMsg (r : Reply) : (s.answer r).lastMsg = s.lastMsg := rfl
@[simp] theorem answer_lastSeq (r : Reply) : (s.answer r).lastSeq = s.lastSeq := rfl
@[simp] theorem answer_txRaw (r : Reply) : (s.answer r).txRaw = s.txRaw := rfl
@[simp] theorem answer_msgRx (r : Reply) : (s.answer r).msgRx = s.msgRx := rfl
@[simp] theorem answer_rxRaw (r : Reply) : (s.answer r).rxRaw = s.rxRaw := rfl
@[simp] theorem answer_replies (r : Reply) : (s.answer r).replies = s.replies ++ [r] := rfl
@[simp] theorem answer_frameIdRand (r : Reply) : (s.answer r).frameIdRand = s.frameIdRand := rfl
@[simp] theorem answer_draws (r : Reply) : (s.answer r).draws = s.draws := rfl
@[simp] theorem answer_input (r : Reply) : (s.answer r).input = s.input := rfl

/-! `emitTx` -/
@[simp] theorem emitTx_cfg (fs : List (List Byte)) : (s.emitTx fs).cfg = s.cfg := rfl
@[simp] theorem emitTx_en (fs : List (List Byte)) : (s.emitTx fs).en = s.en := rfl
@[simp] theorem emitTx_cmdErr (fs : List (List Byte)) : (s.emitTx fs).cmdErr = s.cmdErr := rfl
@[simp] theorem emitTx_crcReg (fs : List (List Byte)) : (s.emitTx fs).crcReg = s.crcReg := rfl
@[simp] theorem emitTx_dstAddr (fs : List (List Byte)) : (s.emitTx fs).dstAddr = s.dstAddr := rfl
@[simp] theorem emitTx_bucketTtl (fs : List (List Byte)) : (s.emitTx fs).bucketTtl = s.bucketTtl := rfl
@[simp] theorem emitTx_discTimeout (fs : List (List Byte)) : (s.emitTx fs).discTimeout = s.discTimeout := rfl
@[simp] theorem emitTx_discState (fs : List (List Byte)) : (s.emitTx fs).discState = s.discState := rfl
@[simp] theorem emitTx_discPending (fs : List (List Byte)) : (s.emitTx fs).discPending = s.discPending := rfl
@[simp] theorem emitTx_discWait (fs : List (List Byte)) : (s.emitTx fs).discWait = s.discWait := rfl
@[simp] theorem emitTx_txq (fs : List (List Byte)) : (s.emitTx fs).txq = s.txq := rfl
@[simp] theorem emitTx_slots (fs : List (List Byte)) : (s.emitTx fs).slots = s.slots := rfl
@[simp] theorem emitTx_lastMsg (fs : List (List Byte)) : (s.emitTx fs).lastMsg = s.lastMsg := rfl
@[simp] theorem emitTx_lastSeq (fs : List (List Byte)) : (s.emitTx fs).lastSeq = s.lastSeq := rfl
@[simp] theorem emitTx_txRaw (fs : List (List Byte)) : (s.emitTx fs).txRaw = s.txRaw ++ fs := rfl
@[simp] theorem emitTx_msgRx (fs : List (List Byte)) : (s.emitTx fs).msgRx = s.msgRx := rfl
@[simp] theorem emitTx_rxRaw (fs : List (List Byte)) : (s.emitTx fs).rxRaw = s.rxRaw := rfl
@[simp] theorem emitTx_replies (fs : List (List Byte)) : (s.emitTx fs).replies = s.replies := rfl
@[simp] theorem emitTx_frameIdRand (fs : List (List Byte)) : (s.emitTx fs).frameIdRand = s.frameIdRand := rfl
@[simp] theorem emitTx_draws (fs : List (List Byte)) : (s.emitTx fs).draws = s.draws := rfl
@[simp] theorem emitTx_input (fs : List (List Byte)) : (s.emitTx fs).input = s.input := rfl

/-! `takeRx` -/
@[simp] theorem takeRx_cfg (rx : List Byte) : (s.takeRx rx).cfg = s.cfg := rfl
@[simp] theorem takeRx_en (rx : List Byte) : (s.takeRx rx).en = s.en := rfl
@[simp] theorem takeRx_cmdErr (rx : List Byte) : (s.takeRx rx).cmdErr = s.cmdErr := rfl
@[simp] theorem takeRx_crcReg (rx : List Byte) : (s.takeRx rx).crcReg = s.crcReg := rfl
@[simp] theorem takeRx_dstAddr (rx : List Byte) : (s.takeRx rx).dstAddr = s.dstAddr := rfl
@[simp] theorem takeRx_bucketTtl (rx : List Byte) : (s.takeRx rx).bucketTtl = s.bucketTtl := rfl
@[simp] theorem takeRx_discTimeout (rx : List Byte) : (s.takeRx rx).discTimeout = s.discTimeout := rfl
@[simp] theorem takeRx_discState (rx : List Byte) : (s.takeRx rx).discState = s.discState := rfl
@[simp] theorem takeRx_discPending (rx : List Byte) : (s.takeRx rx).discPending = s.discPending := rfl
@[simp] theorem takeRx_discWait (rx : List Byte) : (s.takeRx rx).discWait = s.discWait := rfl
@[simp] theorem takeRx_txq (rx : List Byte) : (s.takeRx rx).txq = s.txq := rfl
@[simp] theorem takeRx_slots (rx : List Byte) : (s.takeRx rx).slots = s.slots := rfl
@[simp] theorem takeRx_lastMsg (rx : List Byte) : (s.takeRx rx).lastMsg = s.lastMsg := rfl
@[simp] theorem takeRx_lastSeq (rx : List Byte) : (s.takeRx rx).lastSeq = s.lastSeq := rfl
@[simp] theorem takeRx_txRaw (rx : List Byte) : (s.takeRx rx).txRaw = s.txRaw := rfl
@[simp] theorem takeRx_msgRx (rx : List Byte) : (s.takeRx rx).msgRx = s.msgRx := rfl
@[simp] theorem takeRx_rxRaw (rx : List Byte) : (s.takeRx rx).rxRaw = if rx = [] then s.rxRaw else s.rxRaw ++ [rx] := rfl
@[simp] theorem takeRx_replies (rx : List Byte) : (s.takeRx rx).replies = s.replies := rfl
@[simp] theorem takeRx_frameIdRand (rx : List Byte) : (s.takeRx rx).frameIdRand = s.frameIdRand := rfl
@[simp] theorem takeRx_draws (rx : List Byte) : (s.takeRx rx).draws = s.draws := rfl
@[simp] theorem takeRx_input (rx : List Byte) : (s.takeRx rx).input = s.input := rfl

/-! `drawn` -/
@[simp] theorem drawn_cfg : s.drawn.cfg = s.cfg := rfl
@[simp] theorem drawn_en : s.drawn.en = s.en := rfl
@[simp] theorem drawn_cmdErr : s.drawn.cmdErr = s.cmdErr := rfl
@[simp] theorem drawn_crcReg : s.drawn.crcReg = s.crcReg := rfl
@[simp] theorem drawn_dstAddr : s.drawn.dstAddr = s.dstAddr := rfl
@[simp] theorem drawn_bucketTtl : s.drawn.bucketTtl = s.bucketTtl := rfl
@[simp] theorem drawn_discTimeout : s.drawn.discTimeout = s.discTimeout := rfl
@[simp] theorem drawn_discState : s.drawn.discState = s.discState := rfl
@[simp] theorem drawn_discPending : s.drawn.discPending = s.discPending := rfl
@[simp] theorem drawn_discWait : s.drawn.discWait = s.discWait := rfl
@[simp] theorem drawn_txq : s.drawn.txq = s.txq := rfl
@[simp] theorem drawn_slots : s.drawn.slots = s.slots := rfl
@[simp] theorem drawn_lastMsg : s.drawn.lastMsg = s.lastMsg := rfl
@[simp] theorem drawn_lastSeq : s.drawn.lastSeq = s.lastSeq := rfl
@[simp] theorem drawn_txRaw : s.drawn.txRaw = s.txRaw := rfl
@[simp] theorem drawn_msgRx : s.drawn.msgRx = s.msgRx := rfl
@[simp] theorem drawn_rxRaw : s.drawn.rxRaw = s.rxRaw := rfl
@[simp] theorem drawn_replies : s.drawn.replies = s.replies := rfl
@[simp] theorem drawn_frameIdRand : s.drawn.frameIdRand = s.frameIdRand.tail := rfl
@[simp] theorem drawn_draws : s.drawn.draws = s.draws + 1 := rfl
@[simp] theorem drawn_input : s.drawn.input = s.input := rfl

/-! `popInput` -/
@[simp] theorem popInput_cfg : s.popInput.cfg = s.cfg := rfl
@[simp] theorem popInput_en : s.popInput.en = s.en := rfl
@[simp] theorem popInput_cmdErr : s.popInput.cmdErr = s.cmdErr := rfl
@[simp] theorem popInput_crcReg : s.popInput.crcReg = s.crcReg := rfl
@[simp] theorem popInput_dstAddr : s.popInput.dstAddr = s.dstAddr := rfl
@[simp] theorem popInput_bucketTtl : s.popInput.bucketTtl = s.bucketTtl := rfl
@[simp] theorem popInput_discTimeout : s.popInput.discTimeout = s.discTimeout := rfl
@[simp] theorem popInput_discState : s.popInput.discState = s.discState := rfl
@[simp] theorem popInput_discPending : s.popInput.discPending = s.discPending := rfl
@[simp] theorem popInput_discWait : s.popInput.discWait = s.discWait := rfl
@[simp] theorem popInput_txq : s.popInput.txq = s.txq := rfl
@[simp] theorem popInput_slots : s.popInput.slots = s.slots := rfl
@[simp] theorem popInput_lastMsg : s.popInput.lastMsg = s.lastMsg := rfl
@[simp] theorem popInput_lastSeq : s.popInput.lastSeq = s.lastSeq := rfl
@[simp] theorem popInput_txRaw : s.popInput.txRaw = s.txRaw := rfl
@[simp] theorem popInput_msgRx : s.popInput.msgRx = s.msgRx := rfl
@[simp] theorem popInput_rxRaw : s.popInput.rxRaw = s.rxRaw := rfl
@[simp] theorem popInput_replies : s.popInput.replies = s.replies := rfl
@[simp] theorem popInput_frameIdRand : s.popInput.frameIdRand = s.frameIdRand := rfl
@[simp] theorem popInput_draws : s.popInput.draws = s.draws := rfl
@[simp] theorem popInput_input : s.popInput.input = s.input.tail := rfl

/-! `setEn` -/
@[simp] theorem setEn_cfg (b : Bool) : (s.setEn b).cfg = s.cfg := rfl
@[simp] theorem setEn_en (b : Bool) : (s.setEn b).en = b := rfl
@[simp] theorem setEn_cmdErr (b : Bool) : (s.setEn b).cmdErr = s.cmdErr := rfl
@[simp] theorem setEn_crcReg (b : Bool) : (s.setEn b).crcReg = s.crcReg := rfl
@[simp] theorem setEn_dstAddr (b : Bool) : (s.setEn b).dstAddr = s.dstAddr := rfl
@[simp] theorem setEn_bucketTtl (b : Bool) : (s.setEn b).bucketTtl = s.bucketTtl := rfl
@[simp] theorem setEn_discTimeout (b : Bool) : (s.setEn b).discTimeout = s.discTimeout := rfl
@[simp] theorem setEn_discState (b : Bool) : (s.setEn b).discState = s.discState := rfl
@[simp] theorem setEn_discPending (b : Bool) : (s.setEn b).discPending = s.discPending := rfl
@[simp] theorem setEn_discWait (b : Bool) : (s.setEn b).discWait = s.discWait := rfl
@[simp] theorem setEn_txq (b : Bool) : (s.setEn b).txq = s.txq := rfl
@[simp] theorem setEn_slots (b : Bool) : (s.setEn b).slots = s.slots := rfl
@[simp] theorem setEn_lastMsg (b : Bool) : (s.setEn b).lastMsg = s.lastMsg := rfl
@[simp] theorem setEn_lastSeq (b : Bool) : (s.setEn b).lastSeq = s.lastSeq := rfl
@[simp] theorem setEn_txRaw (b : Bool) : (s.setEn b).txRaw = s.txRaw := rfl
@[simp] theorem setEn_msgRx (b : Bool) : (s.setEn b).msgRx = s.msgRx := rfl
@[simp] theorem setEn_rxRaw (b : Bool) : (s.setEn b).rxRaw = s.rxRaw := rfl
@[simp] theorem setEn_replies (b : Bool) : (s.setEn b).replies = s.replies := rfl
@[simp] theorem setEn_frameIdRand (b : Bool) : (s.setEn b).frameIdRand = s.frameIdRand := rfl
@[simp] theorem setEn_draws (b : Bool) : (s.setEn b).draws = s.draws := rfl
@[simp] theorem setEn_input (b : Bool) : (s.setEn b).input = s.input := rfl

/-! `setCmdErr` -/
@[simp] theorem setCmdErr_cfg (b : Bool) : (s.setCmdErr b).cfg = s.cfg := rfl
@[simp] theorem setCmdErr_en (b : Bool) : (s.setCmdErr b).en = s.en := rfl
@[simp] theorem setCmdErr_cmdErr (b : Bool) : (s.setCmdErr b).cmdErr = b := rfl
@[simp] theorem setCmdErr_crcReg (b : Bool) : (s.setCmdErr b).crcReg = s.crcReg := rfl
@[simp] theorem setCmdErr_dstAddr (b : Bool) : (s.setCmdErr b).dstAddr = s.dstAddr := rfl
@[simp] theorem setCmdErr_bucketTtl (b : Bool) : (s.setCmdErr b).bucketTtl = s.bucketTtl := rfl
@[simp] theorem setCmdErr_discTimeout (b : Bool) : (s.setCmdErr b).discTimeout = s.discTimeout := rfl
@[simp] theorem setCmdErr_discState (b : Bool) : (s.setCmdErr b).discState = s.discState := rfl
@[simp] theorem setCmdErr_discPending (b : Bool) : (s.setCmdErr b).discPending = s.discPending := rfl
@[simp] theorem setCmdErr_discWait (b : Bool) : (s.setCmdErr b).discWait = s.discWait := rfl
@[simp] theorem setCmdErr_txq (b : Bool) : (s.setCmdErr b).txq = s.txq := rfl
@[simp] theorem setCmdErr_slots (b : Bool) : (s.setCmdErr b).slots = s.slots := rfl
@[simp] theorem setCmdErr_lastMsg (b : Bool) : (s.setCmdErr b).lastMsg = s.lastMsg := rfl
@[simp] theorem setCmdErr_lastSeq (b : Bool) : (s.setCmdErr b).lastSeq = s.lastSeq := rfl
@[simp] theorem setCmdErr_txRaw (b : Bool) : (s.setCmdErr b).txRaw = s.txRaw := rfl
@[simp] theorem setCmdErr_msgRx (b : Bool) : (s.setCmdErr b).msgRx = s.msgRx := rfl
@[simp] theorem setCmdErr_rxRaw (b : Bool) : (s.setCmdErr b).rxRaw = s.rxRaw := rfl
@[simp] theorem setCmdErr_replies (b : Bool) : (s.setCmdErr b).replies = s.replies := rfl
@[simp] theorem setCmdErr_frameIdRand (b : Bool) : (s.setCmdErr b).frameIdRand = s.frameIdRand := rfl
@[simp] theorem setCmdErr_draws (b : Bool) : (s.setCmdErr b).draws = s.draws := rfl
@[simp] theorem setCmdErr_input (b : Bool) : (s.setCmdErr b).input = s.input := rfl

/-! `setCrcReg` -/
@[simp] theorem setCrcReg_cfg (c : Word) : (s.setCrcReg c).cfg = s.cfg := rfl
@[simp] theorem setCrcReg_en (c : Word) : (s.setCrcReg c).en = s.en := rfl
@[simp] theorem setCrcReg_cmdErr (c : Word) : (s.setCrcReg c).cmdErr = s.cmdErr := rfl
@[simp] theorem setCrcReg_crcReg (c : Word) : (s.setCrcReg c).crcReg = c := rfl
@[simp] theorem setCrcReg_dstAddr (c : Word) : (s.setCrcReg c).dstAddr = s.dstAddr := rfl
@[simp] theorem setCrcReg_bucketTtl (c : Word) : (s.setCrcReg c).bucketTtl = s.bucketTtl := rfl
@[simp] theorem setCrcReg_discTimeout (c : Word) : (s.setCrcReg c).discTimeout = s.discTimeout := rfl
@[simp] theorem setCrcReg_discState (c : Word) : (s.setCrcReg c).discState = s.discState := rfl
@[simp] theorem setCrcReg_discPending (c : Word) : (s.setCrcReg c).discPending = s.discPending := rfl
@[simp] theorem setCrcReg_discWait (c : Word) : (s.setCrcReg c).discWait = s.discWait := rfl
@[simp] theorem setCrcReg_txq (c : Word) : (s.setCrcReg c).txq = s.txq := rfl
@[simp] theorem setCrcReg_slots (c : Word) : (s.setCrcReg c).slots = s.slots := rfl
@[simp] theorem setCrcReg_lastMsg (c : Word) : (s.setCrcReg c).lastMsg = s.lastMsg := rfl
@[simp] theorem setCrcReg_lastSeq (c : Word) : (s.setCrcReg c).lastSeq = s.lastSeq := rfl
@[simp] theorem setCrcReg_txRaw (c : Word) : (s.setCrcReg c).txRaw = s.txRaw := rfl
@[simp] theorem setCrcReg_msgRx (c : Word) : (s.setCrcReg c).msgRx = s.msgRx := rfl
@[simp] theorem setCrcReg_rxRaw (c : Word) : (s.setCrcReg c).rxRaw = s.rxRaw := rfl
@[simp] theorem setCrcReg_replies (c : Word) : (s.setCrcReg c).replies = s.replies := rfl
@[simp] theorem setCrcReg_frameIdRand (c : Word) : (s.setCrcReg c).frameIdRand = s.frameIdRand := rfl
@[simp] theorem setCrcReg_draws (c : Word) : (s.setCrcReg c).draws = s.draws := rfl
@[simp] theorem setCrcReg_input (c : Word) : (s.setCrcReg c).input = s.input := rfl

/-! `setDstAddr` -/
@[simp] theorem setDstAddr_cfg (a : Byte) : (s.setDstAddr a).cfg = s.cfg := rfl
@[simp] theorem setDstAddr_en (a : Byte) : (s.setDstAddr a).en = s.en := rfl
@[simp] theorem setDstAddr_cmdErr (a : Byte) : (s.setDstAddr a).cmdErr = s.cmdErr := rfl
@[simp] theorem setDstAddr_crcReg (a : Byte) : (s.setDstAddr a).crcReg = s.crcReg := rfl
@[simp] theorem setDstAddr_dstAddr (a : Byte) : (s.setDstAddr a).dstAddr = a := rfl
@[simp] theorem setDstAddr_bucketTtl (a : Byte) : (s.setDstAddr a).bucketTtl = s.bucketTtl := rfl
@[simp] theorem setDstAddr_discTimeout (a : Byte) : (s.setDstAddr a).discTimeout = s.discTimeout := rfl
@[simp] theorem setDstAddr_discState (a : Byte) : (s.setDstAddr a).discState = s.discState := rfl
@[simp] theorem setDstAddr_discPending (a : Byte) : (s.setDstAddr a).discPending = s.discPending := rfl
@[simp] theorem setDstAddr_discWait (a : Byte) : (s.setDstAddr a).discWait = s.discWait := rfl
@[simp] theorem setDstAddr_txq (a : Byte) : (s.setDstAddr a).txq = s.txq := rfl
@[simp] theorem setDstAddr_slots (a : Byte) : (s.setDstAddr a).slots = s.slots := rfl
@[simp] theorem setDstAddr_lastMsg (a : Byte) : (s.setDstAddr a).lastMsg = s.lastMsg := rfl
@[simp] theorem setDstAddr_lastSeq (a : Byte) : (s.setDstAddr a).lastSeq = s.lastSeq := rfl
@[simp] theorem setDstAddr_txRaw (a : Byte) : (s.setDstAddr a).txRaw = s.txRaw := rfl
@[simp] theorem setDstAddr_msgRx (a : Byte) : (s.setDstAddr a).msgRx = s.msgRx := rfl
@[simp] theorem setDstAddr_rxRaw (a : Byte) : (s.setDstAddr a).rxRaw = s.rxRaw := rfl
@[simp] theorem setDstAddr_replies (a : Byte) : (s.setDstAddr a).replies = s.replies := rfl
@[simp] theorem setDstAddr_frameIdRand (a : Byte) : (s.setDstAddr a).frameIdRand = s.frameIdRand := rfl
@[simp] theorem setDstAddr_draws (a : Byte) : (s.setDstAddr a).draws = s.draws := rfl
@[simp] theorem setDstAddr_input (a : Byte) : (s.setDstAddr a).input = s.input := rfl

/-! `setBucketTtl` -/
@[simp] theorem setBucketTtl_cfg (v : Word) : (s.setBucketTtl v).cfg = s.cfg := rfl
@[simp] theorem setBucketTtl_en (v : Word) : (s.setBucketTtl v).en = s.en := rfl
@[simp] theorem setBucketTtl_cmdErr (v : Word) : (s.setBucketTtl v).cmdErr = s.cmdErr := rfl
@[simp] theorem setBucketTtl_crcReg (v : Word) : (s.setBucketTtl v).crcReg = s.crcReg := rfl
@[simp] theorem setBucketTtl_dstAddr (v : Word) : (s.setBucketTtl v).dstAddr = s.dstAddr := rfl
@[simp] theorem setBucketTtl_bucketTtl (v : Word) : (s.setBucketTtl v).bucketTtl = v := rfl
@[simp] theorem setBucketTtl_discTimeout (v : Word) : (s.setBucketTtl v).discTimeout = s.discTimeout := rfl
@[simp] theorem setBucketTtl_discState (v : Word) : (s.setBucketTtl v).discState = s.discState := rfl
@[simp] theorem setBucketTtl_discPending (v : Word) : (s.setBucketTtl v).discPending = s.discPending := rfl
@[simp] theorem setBucketTtl_discWait (v : Word) : (s.setBucketTtl v).discWait = s.discWait := rfl
@[simp] theorem setBucketTtl_txq (v : Word) : (s.setBucketTtl v).txq = s.txq := rfl
@[simp] theorem setBucketTtl_slots (v : Word) : (s.setBucketTtl v).slots = s.slots := rfl
@[simp] theorem setBucketTtl_lastMsg (v : Word) : (s.setBucketTtl v).lastMsg = s.lastMsg := rfl
@[simp] theorem setBucketTtl_lastSeq (v : Word) : (s.setBucketTtl v).lastSeq = s.lastSeq := rfl
@[simp] theorem setBucketTtl_txRaw (v : Word) : (s.setBucketTtl v).txRaw = s.txRaw := rfl
@[simp] theorem setBucketTtl_msgRx (v : Word) : (s.setBucketTtl v).msgRx = s.msgRx := rfl
@[simp] theorem setBucketTtl_rxRaw (v : Word) : (s.setBucketTtl v).rxRaw = s.rxRaw := rfl
@[simp] theorem setBucketTtl_replies (v : Word) : (s.setBucketTtl v).replies = s.replies := rfl
@[simp] theorem setBucketTtl_frameIdRand (v : Word) : (s.setBucketTtl v).frameIdRand = s.frameIdRand := rfl
@[simp] theorem setBucketTtl_draws (v : Word) : (s.setBucketTtl v).draws = s.draws := rfl
@[simp] theorem setBucketTtl_input (v : Word) : (s.setBucketTtl v).input = s.input := rfl

/-! `setDiscTimeout` -/
@[simp] theorem setDiscTimeout_cfg (v : Word) : (s.setDiscTimeout v).cfg = s.cfg := rfl
@[simp] theorem setDiscTimeout_en (v : Word) : (s.setDiscTimeout v).en = s.en := rfl
@[simp] theorem setDiscTimeout_cmdErr (v : Word) : (s.setDiscTimeout v).cmdErr = s.cmdErr := rfl
@[simp] theorem setDiscTimeout_crcReg (v : Word) : (s.setDiscTimeout v).crcReg = s.crcReg := rfl
@[simp] theorem setDiscTimeout_dstAddr (v : Word) : (s.setDiscTimeout v).dstAddr = s.dstAddr := rfl
@[simp] theorem setDiscTimeout_bucketTtl (v : Word) : (s.setDiscTimeout v).bucketTtl = s.bucketTtl := rfl
@[simp] theorem setDiscTimeout_discTimeout (v : Word) : (s.setDiscTimeout v).discTimeout = v := rfl
@[simp] theorem setDiscTimeout_discState (v : Word) : (s.setDiscTimeout v).discState = s.discState := rfl
@[simp] theorem setDiscTimeout_discPending (v : Word) : (s.setDiscTimeout v).discPending = s.discPending := rfl
@[simp] theorem setDiscTimeout_discWait (v : Word) : (s.setDiscTimeout v).discWait = s.discWait := rfl
@[simp] theorem setDiscTimeout_txq (v : Word) : (s.setDiscTimeout v).txq = s.txq := rfl
@[simp] theorem setDiscTimeout_slots (v : Word) : (s.setDiscTimeout v).slots = s.slots := rfl
@[simp] theorem setDiscTimeout_lastMsg (v : Word) : (s.setDiscTimeout v).lastMsg = s.lastMsg := rfl
@[simp] theorem setDiscTimeout_lastSeq (v : Word) : (s.setDiscTimeout v).lastSeq = s.lastSeq := rfl
@[simp] theorem setDiscTimeout_txRaw (v : Word) : (s.setDiscTimeout v).txRaw = s.txRaw := rfl
@[simp] theorem setDiscTimeout_msgRx (v : Word) : (s.setDiscTimeout v).msgRx = s.msgRx := rfl
@[simp] theorem setDiscTimeout_rxRaw (v : Word) : (s.setDiscTimeout v).rxRaw = s.rxRaw := rfl
@[simp] theorem setDiscTimeout_replies (v : Word) : (s.setDiscTimeout v).replies = s.replies := rfl
@[simp] theorem setDiscTimeout_frameIdRand (v : Word) : (s.setDiscTimeout v).frameIdRand = s.frameIdRand := rfl
@[simp] theorem setDiscTimeout_draws (v : Word) : (s.setDiscTimeout v).draws = s.draws := rfl
@[simp] theorem setDiscTimeout_input (v : Word) : (s.setDiscTimeout v).input = s.input := rfl

/-! `setDiscState` -/
@[simp] theorem setDiscState_cfg (d : DiscState) : (s.setDiscState d).cfg = s.cfg := rfl
@[simp] theorem setDiscState_en (d : DiscState) : (s.setDiscState d).en = s.en := rfl
@[simp] theorem setDiscState_cmdErr (d : DiscState) : (s.setDiscState d).cmdErr = s.cmdErr := rfl
@[simp] theorem setDiscState_crcReg (d : DiscState) : (s.setDiscState d).crcReg = s.crcReg := rfl
@[simp] theorem setDiscState_dstAddr (d : DiscState) : (s.setDiscState d).dstAddr = s.dstAddr := rfl
@[simp] theorem setDiscState_bucketTtl (d : DiscState) : (s.setDiscState d).bucketTtl = s.bucketTtl := rfl
@[simp] theorem setDiscState_discTimeout (d : DiscState) : (s.setDiscState d).discTimeout = s.discTimeout := rfl
@[simp] theorem setDiscState_discState (d : DiscState) : (s.setDiscState d).discState = d := rfl
@[simp] theorem setDiscState_discPending (d : DiscState) : (s.setDiscState d).discPending = s.discPending := rfl
@[simp] theorem setDiscState_discWait (d : DiscState) : (s.setDiscState d).discWait = s.discWait := rfl
@[simp] theorem setDiscState_txq (d : DiscState) : (s.setDiscState d).txq = s.txq := rfl
@[simp] theorem setDiscState_slots (d : DiscState) : (s.setDiscState d).slots = s.slots := rfl
@[simp] theorem setDiscState_lastMsg (d : DiscState) : (s.setDiscState d).lastMsg = s.lastMsg := rfl
@[simp] theorem setDiscState_lastSeq (d : DiscState) : (s.setDiscState d).lastSeq = s.lastSeq := rfl
@[simp] theorem setDiscState_txRaw (d : DiscState) : (s.setDiscState d).txRaw = s.txRaw := rfl
@[simp] theorem setDiscState_msgRx (d : DiscState) : (s.setDiscState d).msgRx = s.msgRx := rfl
@[simp] theorem setDiscState_rxRaw (d : DiscState) : (s.setDiscState d).rxRaw = s.rxRaw := rfl
@[simp] theorem setDiscState_replies (d : DiscState) : (s.setDiscState d).replies = s.replies := rfl
@[simp] theorem setDiscState_frameIdRand (d : DiscState) : (s.setDiscState d).frameIdRand = s.frameIdRand := rfl
@[simp] theorem setDiscState_draws (d : DiscState) : (s.setDiscState d).draws = s.draws := rfl
@[simp] theorem setDiscState_input (d : DiscState) : (s.setDiscState d).input = s.input := rfl

/-! `setDiscRequest` -/
@[simp] theorem setDiscRequest_cfg (p : Bool) (w : Word) : (s.setDiscRequest p w).cfg = s.cfg := rfl
@[simp] theorem setDiscRequest_en (p : Bool) (w : Word) : (s.setDiscRequest p w).en = s.en := rfl
@[simp] theorem setDiscRequest_cmdErr (p : Bool) (w : Word) : (s.setDiscRequest p w).cmdErr = s.cmdErr := rfl
@[simp] theorem setDiscRequest_crcReg (p : Bool) (w : Word) : (s.setDiscRequest p w).crcReg = s.crcReg := rfl
@[simp] theorem setDiscRequest_dstAddr (p : Bool) (w : Word) : (s.setDiscRequest p w).dstAddr = s.dstAddr := rfl
@[simp] theorem setDiscRequest_bucketTtl (p : Bool) (w : Word) : (s.setDiscRequest p w).bucketTtl = s.bucketTtl := rfl
@[simp] theorem setDiscRequest_discTimeout (p : Bool) (w : Word) : (s.setDiscRequest p w).discTimeout = s.discTimeout := rfl
@[simp] theorem setDiscRequest_discState (p : Bool) (w : Word) : (s.setDiscRequest p w).discState = s.discState := rfl
@[simp] theorem setDiscRequest_discPending (p : Bool) (w : Word) : (s.setDiscRequest p w).discPending = p := rfl
@[simp] theorem setDiscRequest_discWait (p : Bool) (w : Word) : (s.setDiscRequest p w).discWait = w := rfl
@[simp] theorem setDiscRequest_txq (p : Bool) (w : Word) : (s.setDiscRequest p w).txq = s.txq := rfl
@[simp] theorem setDiscRequest_slots (p : Bool) (w : Word) : (s.setDiscRequest p w).slots = s.slots := rfl
@[simp] theorem setDiscRequest_lastMsg (p : Bool) (w : Word) : (s.setDiscRequest p w).lastMsg = s.lastMsg := rfl
@[simp] theorem setDiscRequest_lastSeq (p : Bool) (w : Word) : (s.setDiscRequest p w).lastSeq = s.lastSeq := rfl
@[simp] theorem setDiscRequest_txRaw (p : Bool) (w : Word) : (s.setDiscRequest p w).txRaw = s.txRaw := rfl
@[simp] theorem setDiscRequest_msgRx (p : Bool) (w : Word) : (s.setDiscRequest p w).msgRx = s.msgRx := rfl
@[simp] theorem setDiscRequest_rxRaw (p : Bool) (w : Word) : (s.setDiscRequest p w).rxRaw = s.rxRaw := rfl
@[simp] theorem setDiscRequest_replies (p : Bool) (w : Word) : (s.setDiscRequest p w).replies = s.replies := rfl
@[simp] theorem setDiscRequest_frameIdRand (p : Bool) (w : Word) : (s.setDiscRequest p w).frameIdRand = s.frameIdRand := rfl
@[simp] theorem setDiscRequest_draws (p : Bool) (w : Word) : (s.setDiscRequest p w).draws = s.draws := rfl
@[simp] theorem setDiscRequest_input (p : Bool) (w : Word) : (s.setDiscRequest p w).input = s.input := rfl

/-! `setTxq` -/
@[simp] theorem setTxq_cfg (q : List (List Byte)) : (s.setTxq q).cfg = s.cfg := rfl
@[simp] theorem setTxq_en (q : List (List Byte)) : (s.setTxq q).en = s.en := rfl
@[simp] theorem setTxq_cmdErr (q : List (List Byte)) : (s.setTxq q).cmdErr = s.cmdErr := rfl
@[simp] theorem setTxq_crcReg (q : List (List Byte)) : (s.setTxq q).crcReg = s.crcReg := rfl
@[simp] theorem setTxq_dstAddr (q : List (List Byte)) : (s.setTxq q).dstAddr = s.dstAddr := rfl
@[simp] theorem setTxq_bucketTtl (q : List (List Byte)) : (s.setTxq q).bucketTtl = s.bucketTtl := rfl
@[simp] theorem setTxq_discTimeout (q : List (List Byte)) : (s.setTxq q).discTimeout = s.discTimeout := rfl
@[simp] theorem setTxq_discState (q : List (List Byte)) : (s.setTxq q).discState = s.discState := rfl
@[simp] theorem setTxq_discPending (q : List (List Byte)) : (s.setTxq q).discPending = s.discPending := rfl
@[simp] theorem setTxq_discWait (q : List (List Byte)) : (s.setTxq q).discWait = s.discWait := rfl
@[simp] theorem setTxq_txq (q : List (List Byte)) : (s.setTxq q).txq = q := rfl
@[simp] theorem setTxq_slots (q : List (List Byte)) : (s.setTxq q).slots = s.slots := rfl
@[simp] theorem setTxq_lastMsg (q : List (List Byte)) : (s.setTxq q).lastMsg = s.lastMsg := rfl
@[simp] theorem setTxq_lastSeq (q : List (List Byte)) : (s.setTxq q).lastSeq = s.lastSeq := rfl
@[simp] theorem setTxq_txRaw (q : List (List Byte)) : (s.setTxq q).txRaw = s.txRaw := rfl
@[simp] theorem setTxq_msgRx (q : List (List Byte)) : (s.setTxq q).msgRx = s.msgRx := rfl
@[simp] theorem setTxq_rxRaw (q : List (List Byte)) : (s.setTxq q).rxRaw = s.rxRaw := rfl
@[simp] theorem setTxq_replies (q : List (List Byte)) : (s.setTxq q).replies = s.replies := rfl
@[simp] theorem setTxq_frameIdRand (q : List (List Byte)) : (s.setTxq q).frameIdRand = s.frameIdRand := rfl
@[simp] theorem setTxq_draws (q : List (List Byte)) : (s.setTxq q).draws = s.draws := rfl
@[simp] theorem setTxq_input (q : List (List Byte)) : (s.setTxq q).input = s.input := rfl

/-! `setSlots` -/
@[simp] theorem setSlots_cfg (v : List Slot) : (s.setSlots v).cfg = s.cfg := rfl
@[simp] theorem setSlots_en (v : List Slot) : (s.setSlots v).en = s.en := rfl
@[simp] theorem setSlots_cmdErr (v : List Slot) : (s.setSlots v).cmdErr = s.cmdErr := rfl
@[simp] theorem setSlots_crcReg (v : List Slot) : (s.setSlots v).crcReg = s.crcReg := rfl
@[simp] theorem setSlots_dstAddr (v : List Slot) : (s.setSlots v).dstAddr = s.dstAddr := rfl
@[simp] theorem setSlots_bucketTtl (v : List Slot) : (s.setSlots v).bucketTtl = s.bucketTtl := rfl
@[simp] theorem setSlots_discTimeout (v : List Slot) : (s.setSlots v).discTimeout = s.discTimeout := rfl
@[simp] theorem setSlots_discState (v : List Slot) : (s.setSlots v).discState = s.discState := rfl
@[simp] theorem setSlots_discPending (v : List Slot) : (s.setSlots v).discPending = s.discPending := rfl
@[simp] theorem setSlots_discWait (v : List Slot) : (s.setSlots v).discWait = s.discWait := rfl
@[simp] theorem setSlots_txq (v : List Slot) : (s.setSlots v).txq = s.txq := rfl
@[simp] theorem setSlots_slots (v : List Slot) : (s.setSlots v).slots = v := rfl
@[simp] theorem setSlots_lastMsg (v : List Slot) : (s.setSlots v).lastMsg = s.lastMsg := rfl
@[simp] theorem setSlots_lastSeq (v : List Slot) : (s.setSlots v).lastSeq = s.lastSeq := rfl
@[simp] theorem setSlots_txRaw (v : List Slot) : (s.setSlots v).txRaw = s.txRaw := rfl
@[simp] theorem setSlots_msgRx (v : List Slot) : (s.setSlots v).msgRx = s.msgRx := rfl
@[simp] theorem setSlots_rxRaw (v : List Slot) : (s.setSlots v).rxRaw = s.rxRaw := rfl
@[simp] theorem setSlots_replies (v : List Slot) : (s.setSlots v).replies = s.replies := rfl
@[simp] theorem setSlots_frameIdRand (v : List Slot) : (s.setSlots v).frameIdRand = s.frameIdRand := rfl
@[simp] theorem setSlots_draws (v : List Slot) : (s.setSlots v).draws = s.draws := rfl
@[simp] theorem setSlots_input (v : List Slot) : (s.setSlots v).input = s.input := rfl

/-! `setSlot` -/
@[simp] theorem setSlot_cfg (k : Nat) (v : Slot) : (s.setSlot k v).cfg = s.cfg := rfl
@[simp] theorem setSlot_en (k : Nat) (v : Slot) : (s.setSlot k v).en = s.en := rfl
@[simp] theorem setSlot_cmdErr (k : Nat) (v : Slot) : (s.setSlot k v).cmdErr = s.cmdErr := rfl
@[simp] theorem setSlot_crcReg (k : Nat) (v : Slot) : (s.setSlot k v).crcReg = s.crcReg := rfl
@[simp] theorem setSlot_dstAddr (k : Nat) (v : Slot) : (s.setSlot k v).dstAddr = s.dstAddr := rfl
@[simp] theorem setSlot_bucketTtl (k : Nat) (v : Slot) : (s.setSlot k v).bucketTtl = s.bucketTtl := rfl
@[simp] theorem setSlot_discTimeout (k : Nat) (v : Slot) : (s.setSlot k v).discTimeout = s.discTimeout := rfl
@[simp] theorem setSlot_discState (k : Nat) (v : Slot) : (s.setSlot k v).discState = s.discState := rfl
@[simp] theorem setSlot_discPending (k : Nat) (v : Slot) : (s.setSlot k v).discPending = s.discPending := rfl
@[simp] theorem setSlot_discWait (k : Nat) (v : Slot) : (s.setSlot k v).discWait = s.discWait := rfl
@[simp] theorem setSlot_txq (k : Nat) (v : Slot) : (s.setSlot k v).txq = s.txq := rfl
@[simp] theorem setSlot_slots (k : Nat) (v : Slot) : (s.setSlot k v).slots = s.slots.set k v := rfl
@[simp] theorem setSlot_lastMsg (k : Nat) (v : Slot) : (s.setSlot k v).lastMsg = s.lastMsg := rfl
@[simp] theorem setSlot_lastSeq (k : Nat) (v : Slot) : (s.setSlot k v).lastSeq = s.lastSeq := rfl
@[simp] theorem setSlot_txRaw (k : Nat) (v : Slot) : (s.setSlot k v).txRaw = s.txRaw := rfl
@[simp] theorem setSlot_msgRx (k : Nat) (v : Slot) : (s.setSlot k v).msgRx = s.msgRx := rfl
@[simp] theorem setSlot_rxRaw (k : Nat) (v : Slot) : (s.setSlot k v).rxRaw = s.rxRaw := rfl
@[simp] theorem setSlot_replies (k : Nat) (v : Slot) : (s.setSlot k v).replies = s.replies := rfl
@[simp] theorem setSlot_frameIdRand (k : Nat) (v : Slot) : (s.setSlot k v).frameIdRand = s.frameIdRand := rfl
@[simp] theorem setSlot_draws (k : Nat) (v : Slot) : (s.setSlot k v).draws = s.draws := rfl
@[simp] theorem setSlot_input (k : Nat) (v : Slot) : (s.setSlot k v).input = s.input := rfl

/-! `dispatch` -/
@[simp] theorem dispatch_cfg (m : List Byte) : (s.dispatch m).cfg = s.cfg := rfl
@[simp] theorem dispatch_en (m : List Byte) : (s.dispatch m).en = s.en := rfl
@[simp] theorem dispatch_cmdErr (m : List Byte) : (s.dispatch m).cmdErr = s.cmdErr := rfl
@[simp] theorem dispatch_crcReg (m : List Byte) : (s.dispatch m).crcReg = s.crcReg := rfl
@[simp] theorem dispatch_dstAddr (m : List Byte) : (s.dispatch m).dstAddr = s.dstAddr := rfl
@[simp] theorem dispatch_bucketTtl (m : List Byte) : (s.dispatch m).bucketTtl = s.bucketTtl := rfl
@[simp] theorem dispatch_discTimeout (m : List Byte) : (s.dispatch m).discTimeout = s.discTimeout := rfl
@[simp] theorem dispatch_discState (m : List Byte) : (s.dispatch m).discState = s.discState := rfl
@[simp] theorem dispatch_discPending (m : List Byte) : (s.dispatch m).discPending = s.discPending := rfl
@[simp] theorem dispatch_discWait (m : List Byte) : (s.dispatch m).discWait = s.discWait := rfl
@[simp] theorem dispatch_txq (m : List Byte) : (s.dispatch m).txq = s.txq := rfl
@[simp] theorem dispatch_slots (m : List Byte) : (s.dispatch m).slots = s.slots := rfl
@[simp] theorem dispatch_lastMsg (m : List Byte) : (s.dispatch m).lastMsg = m := rfl
@[simp] theorem dispatch_lastSeq (m : List Byte) : (s.dispatch m).lastSeq = s.lastSeq + 1#32 := rfl
@[simp] theorem dispatch_txRaw (m : List Byte) : (s.dispatch m).txRaw = s.txRaw := rfl
@[simp] theorem dispatch_msgRx (m : List Byte) : (s.dispatch m).msgRx = s.msgRx ++ [m] := rfl
@[simp] theorem dispatch_rxRaw (m : List Byte) : (s.dispatch m).rxRaw = s.rxRaw := rfl
@[simp] theorem dispatch_replies (m : List Byte) : (s.dispatch m).replies = s.replies := rfl
@[simp] theorem dispatch_frameIdRand (m : List Byte) : (s.dispatch m).frameIdRand = s.frameIdRand := rfl
@[simp] theorem dispatch_draws (m : List Byte) : (s.dispatch m).draws = s.draws := rfl
@[simp] theorem dispatch_input (m : List Byte) : (s.dispatch m).input = s.input := rfl

/-! `discStart` -/
@[simp] theorem discStart_cfg : s.discStart.cfg = s.cfg := rfl
@[simp] theorem discStart_en : s.discStart.en = s.en := rfl
@[simp] theorem discStart_cmdErr : s.discStart.cmdErr = s.cmdErr := rfl
@[simp] theorem discStart_crcReg : s.discStart.crcReg = s.crcReg := rfl
@[simp] theorem discStart_dstAddr : s.discStart.dstAddr = s.dstAddr := rfl
@[simp] theorem discStart_bucketTtl : s.discStart.bucketTtl = s.bucketTtl := rfl
@[simp] theorem discStart_discTimeout : s.discStart.discTimeout = s.discTimeout := rfl
@[simp] theorem discStart_discState : s.discStart.discState = .wait := rfl
@[simp] theorem discStart_discPending : s.discStart.discPending = true := rfl
@[simp] theorem discStart_discWait : s.discStart.discWait = 0#32 := rfl
@[simp] theorem discStart_txq : s.discStart.txq = s.txq := rfl
@[simp] theorem discStart_slots : s.discStart.slots = s.slots := rfl
@[simp] theorem discStart_lastMsg : s.discStart.lastMsg = s.lastMsg := rfl
@[simp] theorem discStart_lastSeq : s.discStart.lastSeq = s.lastSeq := rfl
@[simp] theorem discStart_txRaw : s.discStart.txRaw = s.txRaw := rfl
@[simp] theorem discStart_msgRx : s.discStart.msgRx = s.msgRx := rfl
@[simp] theorem discStart_rxRaw : s.discStart.rxRaw = s.rxRaw := rfl
@[simp] theorem discStart_replies : s.discStart.replies = s.replies := rfl
@[simp] theorem discStart_frameIdRand : s.discStart.frameIdRand = s.frameIdRand := rfl
@[simp] theorem discStart_draws : s.discStart.draws = s.draws := rfl
@[simp] theorem discStart_input : s.discStart.input = s.input := rfl

/-! `softReset` -/
@[simp] theorem softReset_cfg : s.softReset.cfg = s.cfg := rfl
@[simp] theorem softReset_en : s.softReset.en = s.en := rfl
@[simp] theorem softReset_cmdErr : s.softReset.cmdErr = false := rfl
@[simp] theorem softReset_crcReg : s.softReset.crcReg = s.crcReg := rfl
@[simp] theorem softReset_dstAddr : s.softReset.dstAddr = s.dstAddr := rfl
@[simp] theorem softReset_bucketTtl : s.softReset.bucketTtl = s.bucketTtl := rfl
@[simp] theorem softReset_discTimeout : s.softReset.discTimeout = s.discTimeout := rfl
@[simp] theorem softReset_discState : s.softReset.discState = .idle := rfl
@[simp] theorem softReset_discPending : s.softReset.discPending = false := rfl
@[simp] theorem softReset_discWait : s.softReset.discWait = 0#32 := rfl
@[simp] theorem softReset_txq : s.softReset.txq = [] := rfl
@[simp] theorem softReset_slots : s.softReset.slots = s.slots.map fun _ => none := rfl
@[simp] theorem softReset_lastMsg : s.softReset.lastMsg = [] := rfl
@[simp] theorem softReset_lastSeq : s.softReset.lastSeq = 0#32 := rfl
@[simp] theorem softReset_txRaw : s.softReset.txRaw = s.txRaw := rfl
@[simp] theorem softReset_msgRx : s.softReset.msgRx = s.msgRx := rfl
@[simp] theorem softReset_rxRaw : s.softReset.rxRaw = s.rxRaw := rfl
@[simp] theorem softReset_replies : s.softReset.replies = s.replies := rfl
@[simp] theorem softReset_frameIdRand : s.softReset.frameIdRand = s.frameIdRand := rfl
@[simp] theorem softReset_draws : s.softReset.draws = s.draws := rfl
@[simp] theorem softReset_input : s.softReset.input = s.input := rfl

/-! `hardReset` -/
@[simp] theorem hardReset_cfg : s.hardReset.cfg = s.cfg := rfl
@[simp] theorem hardReset_en : s.hardReset.en = false := rfl
@[simp] theorem hardReset_cmdErr : s.hardReset.cmdErr = false := rfl
@[simp] theorem hardReset_crcReg : s.hardReset.crcReg = 0xFFFFFFFF#32 := rfl
@[simp] theorem hardReset_dstAddr : s.hardReset.dstAddr = 0x00#8 := rfl
@[simp] theorem hardReset_bucketTtl : s.hardReset.bucketTtl = 0#32 := rfl
@[simp] theorem hardReset_discTimeout : s.hardReset.discTimeout = 16#32 := rfl
@[simp] theorem hardReset_discState : s.hardReset.discState = .idle := rfl
@[simp] theorem hardReset_discPending : s.hardReset.discPending = false := rfl
@[simp] theorem hardReset_discWait : s.hardReset.discWait = 0#32 := rfl
@[simp] theorem hardReset_txq : s.hardReset.txq = [] := rfl
@[simp] theorem hardReset_slots : s.hardReset.slots = List.replicate s.cfg.nb.toNat none := rfl
@[simp] theorem hardReset_lastMsg : s.hardReset.lastMsg = [] := rfl
@[simp] theorem hardReset_lastSeq : s.hardReset.lastSeq = 0#32 := rfl
@[simp] theorem hardReset_txRaw : s.hardReset.txRaw = s.txRaw := rfl
@[simp] theorem hardReset_msgRx : s.hardReset.msgRx = s.msgRx := rfl
@[simp] theorem hardReset_rxRaw : s.hardReset.rxRaw = s.rxRaw := rfl
@[simp] theorem hardReset_replies : s.hardReset.replies = s.replies := rfl
@[simp] theorem hardReset_frameIdRand : s.hardReset.frameIdRand = s.frameIdRand := rfl
@[simp] theorem hardReset_draws : s.hardReset.draws = s.draws := rfl
@[simp] theorem hardReset_input : s.hardReset.input = s.input := rfl

/-! `withFetchWord` -/
@[simp] theorem withFetchWord_cfg (n w : Nat) : (s.withFetchWord n w).cfg = s.cfg := rfl
@[simp] theorem withFetchWord_en (n w : Nat) : (s.withFetchWord n w).en = s.en := rfl
@[simp] theorem withFetchWord_cmdErr (n w : Nat) : (s.withFetchWord n w).cmdErr = s.cmdErr := rfl
@[simp] theorem withFetchWord_crcReg (n w : Nat) : (s.withFetchWord n w).crcReg = s.crcReg := rfl
@[simp] theorem withFetchWord_dstAddr (n w : Nat) : (s.withFetchWord n w).dstAddr = s.dstAddr := rfl
@[simp] theorem withFetchWord_bucketTtl (n w : Nat) : (s.withFetchWord n w).bucketTtl = s.bucketTtl := rfl
@[simp] theorem withFetchWord_discTimeout (n w : Nat) : (s.withFetchWord n w).discTimeout = s.discTimeout := rfl
@[simp] theorem withFetchWord_discState (n w : Nat) : (s.withFetchWord n w).discState = s.discState := rfl
@[simp] theorem withFetchWord_discPending (n w : Nat) : (s.withFetchWord n w).discPending = s.discPending := rfl
@[simp] theorem withFetchWord_discWait (n w : Nat) : (s.withFetchWord n w).discWait = s.discWait := rfl
@[simp] theorem withFetchWord_txq (n w : Nat) : (s.withFetchWord n w).txq = s.txq := rfl
@[simp] theorem withFetchWord_slots (n w : Nat) : (s.withFetchWord n w).slots = s.slots := rfl
@[simp] theorem withFetchWord_lastMsg (n w : Nat) : (s.withFetchWord n w).lastMsg = s.lastMsg := rfl
@[simp] theorem withFetchWord_lastSeq (n w : Nat) : (s.withFetchWord n w).lastSeq = s.lastSeq := rfl
@[simp] theorem withFetchWord_txRaw (n w : Nat) : (s.withFetchWord n w).txRaw = s.txRaw := rfl
@[simp] theorem withFetchWord_msgRx (n w : Nat) : (s.withFetchWord n w).msgRx = s.msgRx := rfl
@[simp] theorem withFetchWord_rxRaw (n w : Nat) : (s.withFetchWord n w).rxRaw = s.rxRaw := rfl
@[simp] theorem withFetchWord_replies (n w : Nat) : (s.withFetchWord n w).replies = s.replies := rfl
@[simp] theorem withFetchWord_frameIdRand (n w : Nat) : (s.withFetchWord n w).frameIdRand = s.frameIdRand := rfl
@[simp] theorem withFetchWord_draws (n w : Nat) : (s.withFetchWord n w).draws = s.draws := rfl
@[simp] theorem withFetchWord_input (n w : Nat) : (s.withFetchWord n w).input = tableTransfer n w :: s.input := rfl

end Sys2Proof.Machine.State
end

