-- ==== Sys2Proof/Laws/Registers.lean ====
section
/-! SUPPORT. Register reads and writes, commands and submission: everything each can do, said once. -/

namespace Sys2Proof.Machine

/-! ### Reads (R200) -/

theorem readReg_misaligned {off : Offset} (s : State) (h : off.extractLsb' 0 2 ≠ 0#2) : readReg off s = 0#32 := by
  unfold readReg
  rw [if_pos h]

theorem readReg_reserved {off : Offset} (s : State) (h : off.reserved = true) : readReg off s = 0#32 := by
  have hs := reserved_split h
  have hw := mt (inWindow_iff off).mpr hs.2
  unfold readReg
  rw [if_neg (not_not.mpr hs.1), if_neg (reserved_ne h (by decide)), if_neg (reserved_ne h (by decide)),
    if_neg (reserved_ne h (by decide)), if_neg (reserved_ne h (by decide)), if_neg (reserved_ne h (by decide)),
    if_neg (reserved_ne h (by decide)), if_neg (reserved_ne h (by decide)), if_neg (reserved_ne h (by decide)),
    if_neg (reserved_ne h (by decide)), if_neg (by omega)]

/-- An offset at or above 0x4000 is no smaller one. -/
theorem window_ne {off k : Offset} (h : 0x4000 ≤ off.toNat) (hk : k.toNat < 0x4000) : off ≠ k := by
  rintro rfl
  omega

theorem readReg_window {off : Offset} (s : State) (h : off.extractLsb' 0 2 = 0#2) (hw : 0x4000 ≤ off.toNat) :
    readReg off s = lastDataWord s.lastMsg (off.toNat - 0x4000) := by
  have ha := (aligned_iff off).mp h
  have hl := off.isLt
  unfold readReg
  rw [if_neg (not_not.mpr h), if_neg (window_ne hw (by decide)), if_neg (window_ne hw (by decide)),
    if_neg (window_ne hw (by decide)), if_neg (window_ne hw (by decide)), if_neg (window_ne hw (by decide)),
    if_neg (window_ne hw (by decide)), if_neg (window_ne hw (by decide)), if_neg (window_ne hw (by decide)),
    if_neg (window_ne hw (by decide)), if_pos (by omega)]

/-- Byte `j` of a little-endian word (R13). -/
theorem getLe32_byte (b : List Byte) (i : Nat) {j : Nat} (hj : j < 4) :
    (getLe32 b i).extractLsb' (8 * j) 8 = byteAt b (i + j) := by
  have h := le32_getLe32 b i
  unfold le32 at h
  simp only [List.cons.injEq] at h
  obtain ⟨h0, h1, h2, h3, -⟩ := h
  interval_cases j
  · exact h0
  · exact h1
  · exact h2
  · exact h3

/-- The fields of CONFIG (R40). -/
theorem configWord_fields (p : Config.Params) : (configWord p).extractLsb' 0 8 = p.nb ∧
    (configWord p).extractLsb' 8 8 = p.maxFrag ∧ (configWord p).extractLsb' 16 16 = p.txqMax := by
  unfold configWord
  refine ⟨?_, ?_, ?_⟩ <;> (ext i hi; interval_cases i <;> simp)

/-! ### Writes and commands (R201, R211) -/

theorem writeStatus_eq (v : Word) (s : State) : writeStatus v s = { s with cmdErr := s.cmdErr && !v.getLsbD 1 } := by
  unfold writeStatus State.setCmdErr
  cases v.getLsbD 1 <;> simp

/-- A write to an offset that is none of the five writable ones is ignored (R53 to R55). -/
theorem writeReg_ignored {off : Offset} (v : Word) (s : State) (h0 : off ≠ 0x0000#15) (h1 : off ≠ 0x0004#15)
    (h2 : off ≠ 0x0008#15) (h3 : off ≠ 0x0010#15) (h4 : off ≠ 0x0014#15) : writeReg off v s = s := by
  unfold writeReg
  rw [if_neg h0, if_neg h1, if_neg h2, if_neg h3, if_neg h4, ite_self]

/-- Everything a write to CMD can do. -/
theorem command_cases (v : Word) (s : State) :
    (cmdOpc v = 0x00#8 ∧ command v s = s) ∨
    (cmdOpc v = 0x01#8 ∧ command v s = s.setCrcReg crcInitial) ∨
    (cmdOpc v = 0x02#8 ∧ command v s = s.setCrcReg (crcStep s.crcReg (cmdArg v))) ∨
    (cmdOpc v = 0x03#8 ∧ command v s = s.setEn true) ∨
    (cmdOpc v = 0x04#8 ∧ command v s = s.setEn false) ∨
    (cmdOpc v = 0x05#8 ∧ command v s = s.softReset) ∨
    (cmdOpc v = 0x06#8 ∧ command v s = s.discStart) ∨
    ((∀ k : Byte, k.toNat < 7 → cmdOpc v ≠ k) ∧ command v s = s.setCmdErr true) := by
  unfold command
  split_ifs with h0 h1 h2 h3 h4 h5 h6
  · exact .inl ⟨h0, rfl⟩
  · exact .inr (.inl ⟨h1, rfl⟩)
  · exact .inr (.inr (.inl ⟨h2, rfl⟩))
  · exact .inr (.inr (.inr (.inl ⟨h3, rfl⟩)))
  · exact .inr (.inr (.inr (.inr (.inl ⟨h4, rfl⟩))))
  · exact .inr (.inr (.inr (.inr (.inr (.inl ⟨h5, rfl⟩)))))
  · exact .inr (.inr (.inr (.inr (.inr (.inr (.inl ⟨h6, rfl⟩))))))
  · refine .inr (.inr (.inr (.inr (.inr (.inr (.inr ⟨?_, rfl⟩))))))
    rintro k hk rfl
    have e : ∀ n : Nat, n < 256 → ¬cmdOpc v = BitVec.ofNat 8 n → (cmdOpc v).toNat ≠ n := by
      intro n hn h h'
      apply h
      rw [← h']
      simp
    have := e 0 (by decide) h0
    have := e 1 (by decide) h1
    have := e 2 (by decide) h2
    have := e 3 (by decide) h3
    have := e 4 (by decide) h4
    have := e 5 (by decide) h5
    have := e 6 (by decide) h6
    omega

/-- The low byte of a command word as a number (R77). -/
theorem cmdOpc_eq_iff {v : Word} {k : Nat} (hk : k < 256) : cmdOpc v = BitVec.ofNat 8 k ↔ v.toNat % 256 = k := by
  rw [← BitVec.toNat_inj]
  simp [cmdOpc, Nat.mod_eq_of_lt hk]

/-- A submission appends the message or changes nothing (R180). -/
theorem submit_cases (m : List Byte) (s : State) :
    (submitStatus m s = .accept ∧ submit m s = s.setTxq (s.txq ++ [m])) ∨
      (submitStatus m s ≠ .accept ∧ submit m s = s) := by
  unfold submit
  cases submitStatus m s
  · exact .inl ⟨rfl, rfl⟩
  · exact .inr ⟨by decide, rfl⟩
  · exact .inr ⟨by decide, rfl⟩

end Sys2Proof.Machine
end

