-- ==== Sys2Proof/Laws/Slots.lean ====
section
/-! SUPPORT. The slots and the buckets: what each search and each update does, said once. -/

namespace Sys2Proof.Machine

/-! ### Searches -/

theorem mem_buckets {s : State} {b : Bucket} : b ∈ s.buckets ↔ some b ∈ s.slots := by
  simp [State.buckets]

/-- The lookup gives the lowest slot with the identifier (R158). -/
theorem lookupSlot_eq_some {id : Word} {slots : List Slot} {k : Nat} {b : Bucket} :
    lookupSlot id slots = some (k, b) ↔
      slots[k]? = some (some b) ∧ b.frameId = id ∧ ∀ j < k, ∀ c, slots[j]? = some (some c) → c.frameId ≠ id := by
  induction slots generalizing k with
  | nil => simp [lookupSlot]
  | cons o rest ih =>
    have shift : ∀ (hne : ∀ c, o = some c → c.frameId ≠ id),
        ((lookupSlot id rest).map (fun p => (p.1 + 1, p.2)) = some (k, b) ↔
          (o :: rest)[k]? = some (some b) ∧ b.frameId = id ∧
            ∀ j < k, ∀ c, (o :: rest)[j]? = some (some c) → c.frameId ≠ id) := by
      intro hne
      cases k with
      | zero =>
        constructor
        · intro h
          simp at h
        · rintro ⟨h1, h2, -⟩
          exact absurd h2 (hne b (by simpa using h1))
      | succ k =>
        have := @ih k
        constructor
        · intro h
          simp only [Option.map_eq_some_iff, Prod.mk.injEq, Prod.exists, Nat.add_right_cancel_iff] at h
          obtain ⟨k', b', h1, rfl, rfl⟩ := h
          obtain ⟨h2, h3, h4⟩ := this.mp h1
          refine ⟨by simpa using h2, h3, ?_⟩
          intro j hj c hc
          cases j with
          | zero => exact hne c (by simpa using hc)
          | succ j => exact h4 j (by omega) c (by simpa using hc)
        · rintro ⟨h1, h2, h3⟩
          have h4 := this.mpr ⟨by simpa using h1, h2, fun j hj c hc => h3 (j + 1) (by omega) c (by simpa using hc)⟩
          simp [h4]
    cases o with
    | none => exact shift (by simp)
    | some c =>
      by_cases hc : c.frameId = id
      · simp only [lookupSlot, hc, if_true]
        constructor
        · intro h
          cases h
          exact ⟨rfl, hc, by simp⟩
        · rintro ⟨h1, h2, h3⟩
          cases k with
          | zero => simpa using h1
          | succ k => exact absurd hc (h3 0 (by omega) c rfl)
      · simp only [lookupSlot, hc, if_false]
        exact shift (by rintro d ⟨⟩; exact hc)

theorem lookupSlot_eq_none {id : Word} {slots : List Slot} :
    lookupSlot id slots = none ↔ ∀ b, some b ∈ slots → b.frameId ≠ id := by
  induction slots with
  | nil => simp [lookupSlot]
  | cons o rest ih =>
    cases o with
    | none => simp [lookupSlot, ih]
    | some c =>
      by_cases hc : c.frameId = id
      · simp only [lookupSlot, hc, if_true, reduceCtorEq, false_iff]
        intro h
        exact h c (by simp) hc
      · simp [lookupSlot, hc, ih]

/-- The free slot is the lowest one (R159). -/
theorem freeSlot_eq_some {slots : List Slot} {k : Nat} :
    freeSlot slots = some k ↔ slots[k]? = some none ∧ ∀ j < k, slots[j]? ≠ some none := by
  induction slots generalizing k with
  | nil => simp [freeSlot]
  | cons o rest ih =>
    cases o with
    | none =>
      simp only [freeSlot]
      constructor
      · rintro ⟨⟩
        exact ⟨rfl, by simp⟩
      · rintro ⟨-, h⟩
        cases k with
        | zero => rfl
        | succ k => exact absurd rfl (h 0 (by omega))
    | some c =>
      cases k with
      | zero => simp [freeSlot]
      | succ k =>
        simp only [freeSlot, Option.map_eq_some_iff, Nat.add_right_cancel_iff, exists_eq_right, ih]
        constructor
        · rintro ⟨h1, h2⟩
          refine ⟨by simpa using h1, ?_⟩
          intro j hj
          cases j with
          | zero => simp
          | succ j => simpa using h2 j (by omega)
        · rintro ⟨h1, h2⟩
          exact ⟨by simpa using h1, fun j hj => by simpa using h2 (j + 1) (by omega)⟩

theorem freeSlot_eq_none {slots : List Slot} : freeSlot slots = none ↔ none ∉ slots := by
  induction slots with
  | nil => simp [freeSlot]
  | cons o rest ih => cases o <;> simp [freeSlot, ih]

/-! ### Fragments (R31, R163) -/

@[simp] theorem insertFrag_keys_mem {o : Nat} {p : List Byte} {fs : List (Nat × List Byte)} {j : Nat} :
    j ∈ (insertFrag o p fs).map Prod.fst ↔ j = o ∨ j ∈ fs.map Prod.fst := by
  induction fs with
  | nil => simp [insertFrag]
  | cons q rest ih =>
    obtain ⟨k, q⟩ := q
    simp only [insertFrag]
    split
    · simp
    · split
      · subst_vars
        simp
      · simp only [List.map_cons, List.mem_cons, ih]
        tauto

/-- Insertion keeps the fragment numbers rising. -/
theorem insertFrag_rising {o : Nat} {p : List Byte} {fs : List (Nat × List Byte)}
    (h : (fs.map Prod.fst).Pairwise (· < ·)) : ((insertFrag o p fs).map Prod.fst).Pairwise (· < ·) := by
  induction fs with
  | nil => simp [insertFrag]
  | cons q rest ih =>
    obtain ⟨k, q⟩ := q
    simp only [List.map_cons, List.pairwise_cons] at h
    simp only [insertFrag]
    split
    · rename_i hk
      simp only [List.map_cons, List.pairwise_cons]
      refine ⟨?_, h.1, h.2⟩
      intro j hj
      rcases List.mem_cons.mp hj with rfl | hj
      · exact hk
      · exact hk.trans (h.1 j hj)
    · split
      · subst_vars
        simpa using h
      · rename_i h1 h2
        simp only [List.map_cons, List.pairwise_cons]
        refine ⟨?_, ih h.2⟩
        intro j hj
        rcases insertFrag_keys_mem.mp hj with rfl | hj
        · omega
        · exact h.1 j hj

theorem lookup_cons_ite (j k : Nat) (q : List Byte) (rest : List (Nat × List Byte)) :
    ((k, q) :: rest).lookup j = if j = k then some q else rest.lookup j := by
  by_cases h : j = k
  · simp [h]
  · have : (j == k) = false := by simp [h]
    simp [List.lookup, this, h]

theorem insertFrag_lookup {o j : Nat} {p : List Byte} {fs : List (Nat × List Byte)}
    (h : (fs.map Prod.fst).Pairwise (· < ·)) :
    (insertFrag o p fs).lookup j = if j = o then some p else fs.lookup j := by
  induction fs with
  | nil => rw [insertFrag, lookup_cons_ite]
  | cons q rest ih =>
    obtain ⟨k, q⟩ := q
    simp only [List.map_cons, List.pairwise_cons] at h
    simp only [insertFrag]
    split
    · rw [lookup_cons_ite]
    · split
      · subst_vars
        rw [lookup_cons_ite, lookup_cons_ite]
        split <;> rfl
      · rename_i h1 h2
        rw [lookup_cons_ite, lookup_cons_ite, ih h.2]
        by_cases hk : j = k
        · simp [hk, Ne.symm h2]
        · simp [hk]

theorem insertFrag_mem {o : Nat} {p : List Byte} {fs : List (Nat × List Byte)} {x : Nat × List Byte}
    (h : x ∈ insertFrag o p fs) : x = (o, p) ∨ x ∈ fs := by
  induction fs with
  | nil => simpa [insertFrag] using h
  | cons q rest ih =>
    obtain ⟨k, q⟩ := q
    simp only [insertFrag] at h
    split at h
    · simpa using h
    · split at h
      · rcases List.mem_cons.mp h with h | h
        · exact .inl h
        · exact .inr (by simp [h])
      · rcases List.mem_cons.mp h with h | h
        · exact .inr (by simp [h])
        · rcases ih h with h | h
          · exact .inl h
          · exact .inr (by simp [h])

@[simp] theorem store_frameId (b : Bucket) (o : Nat) (p : List Byte) : (b.store o p).frameId = b.frameId := rfl

@[simp] theorem store_total (b : Bucket) (o : Nat) (p : List Byte) : (b.store o p).total = b.total := rfl

@[simp] theorem store_age (b : Bucket) (o : Nat) (p : List Byte) : (b.store o p).age = b.age := rfl

@[simp] theorem store_numbers (b : Bucket) (o : Nat) (p : List Byte) : (b.store o p).numbers = b.numbers := rfl

theorem mem_store_held {b : Bucket} {o j : Nat} {p : List Byte} : j ∈ (b.store o p).held ↔ j = o ∨ j ∈ b.held :=
  insertFrag_keys_mem

theorem store_rising {b : Bucket} {o : Nat} {p : List Byte} (h : b.held.Pairwise (· < ·)) :
    (b.store o p).held.Pairwise (· < ·) := insertFrag_rising h

theorem store_frag {b : Bucket} {o : Nat} {p : List Byte} (h : b.held.Pairwise (· < ·)) (j : Nat) :
    (b.store o p).frag j = if j = o then p else b.frag j := by
  unfold Bucket.frag Bucket.store
  rw [insertFrag_lookup h]
  split <;> rfl

theorem complete_iff (b : Bucket) : b.complete = true ↔ b.held = b.numbers := by
  simp [Bucket.complete]

/-- A rising list of numbers of 1 .. n that has them all is 1 .. n. -/
theorem rising_eq_range' {l : List Nat} {n : Nat} (h : l.Pairwise (· < ·)) (hm : ∀ j, j ∈ l ↔ 1 ≤ j ∧ j ≤ n) :
    l = List.range' 1 n := by
  apply List.Perm.eq_of_pairwise (le := (· < ·)) (fun a b _ _ h1 h2 => absurd h1 (by omega)) h
    (List.pairwise_lt_range' (s := 1) (n := n) (step := 1) (by omega))
  rw [List.perm_ext_iff_of_nodup (h.imp (fun h => Nat.ne_of_lt h)) (List.nodup_range' (s := 1) (n := n) (step := 1) (by omega))]
  intro j
  rw [hm j, List.mem_range'_1]
  omega

end Sys2Proof.Machine
end

