-- ==== Sys2Proof/Laws/Tick.lean ====
section
/-! SUPPORT. The phases of a TICK: each answers a next state, and everything it can do to that state, said once. -/

namespace Sys2Proof.Machine

/-! ### Settings and sides -/

theorem SameSettings.refl (s : State) : SameSettings s s := ⟨rfl, rfl, rfl, rfl, rfl, rfl, rfl, rfl, rfl⟩

theorem SameSettings.trans {s t u : State} (h : SameSettings s t) (g : SameSettings t u) : SameSettings s u :=
  ⟨g.1.trans h.1, g.2.trans h.2, g.3.trans h.3, g.4.trans h.4, g.5.trans h.5, g.6.trans h.6, g.7.trans h.7,
    g.8.trans h.8, g.9.trans h.9⟩

theorem SameSendSide.refl (s : State) : SameSendSide s s := ⟨rfl, rfl, rfl, rfl, rfl⟩

theorem SameSendSide.trans {s t u : State} (h : SameSendSide s t) (g : SameSendSide t u) : SameSendSide s u :=
  ⟨g.1.trans h.1, g.2.trans h.2, g.3.trans h.3, g.4.trans h.4, g.5.trans h.5⟩

theorem SameReceiveSide.refl (s : State) : SameReceiveSide s s := ⟨rfl, rfl, rfl, rfl, rfl, rfl⟩

theorem SameReceiveSide.trans {s t u : State} (h : SameReceiveSide s t) (g : SameReceiveSide t u) :
    SameReceiveSide s u :=
  ⟨g.1.trans h.1, g.2.trans h.2, g.3.trans h.3, g.4.trans h.4, g.5.trans h.5, g.6.trans h.6⟩

/-! ### The data path (R150) -/

theorem not_outOfRange {f : Frame} {s : State} (h : outOfRange f s = false) :
    1 ≤ f.frameOrder.toNat ∧ f.frameOrder.toNat ≤ f.frameTotal.toNat
      ∧ f.frameTotal.toNat ≤ s.cfg.maxFrag.toNat := by
  simp only [outOfRange, Bool.or_eq_false_iff, beq_eq_false_iff_ne, decide_eq_false_iff_not, gt_iff_lt, not_lt] at h
  obtain ⟨⟨⟨-, h2⟩, h3⟩, h4⟩ := h
  refine ⟨?_, h3, h4⟩
  have : f.frameOrder.toNat ≠ 0 := fun h0 => h2 (BitVec.eq_of_toNat_eq (by simpa using h0))
  omega

theorem outOfRange_eq_false {f : Frame} {s : State} (h1 : 1 ≤ f.frameOrder.toNat)
    (h2 : f.frameOrder.toNat ≤ f.frameTotal.toNat) (h3 : f.frameTotal.toNat ≤ s.cfg.maxFrag.toNat) :
    outOfRange f s = false := by
  have h4 : f.frameOrder ≠ 0#8 := fun h => by simp [h] at h1
  have h5 : f.frameTotal ≠ 0#8 := fun h => by simp [h] at h2; omega
  simp [outOfRange, h4, h5, h2, h3]

/-- A fragment is filed: its bucket (found, or new in the lowest free slot), and what becomes of it (R158 to R164). -/
def Filed (f : Frame) (s : State) (v : Verdict) (t : State) : Prop :=
  ∃ k b, ((lookupSlot f.frameId s.slots = some (k, b) ∧ b.total = f.frameTotal) ∨
      (lookupSlot f.frameId s.slots = none ∧ freeSlot s.slots = some k ∧ b = newBucket f)) ∧
    f.frameOrder.toNat ∉ b.held ∧
    ((v = .completed ∧ (b.store f.frameOrder.toNat f.payload).complete = true ∧
        t = (s.setSlot k none).dispatch (b.store f.frameOrder.toNat f.payload).message) ∨
     (v = .stored ∧ (b.store f.frameOrder.toNat f.payload).complete = false ∧
        t = s.setSlot k (some (b.store f.frameOrder.toNat f.payload))))

theorem storeFragment_cases {k : Nat} {b : Bucket} {f : Frame} {s t : State} {v : Verdict}
    (h : storeFragment k b f s = (v, t))
    (hk : (lookupSlot f.frameId s.slots = some (k, b) ∧ b.total = f.frameTotal) ∨
      (lookupSlot f.frameId s.slots = none ∧ freeSlot s.slots = some k ∧ b = newBucket f)) :
    (v.isDrop = true ∧ t = s) ∨ Filed f s v t := by
  unfold storeFragment at h
  split at h
  · cases h
    exact .inl ⟨rfl, rfl⟩
  · rename_i ho
    split at h
    · rename_i hc
      cases h
      exact .inr ⟨k, b, hk, ho, .inl ⟨rfl, hc, rfl⟩⟩
    · rename_i hc
      cases h
      exact .inr ⟨k, b, hk, ho, .inr ⟨rfl, by simpa using hc, rfl⟩⟩

theorem multiFragment_cases {f : Frame} {s t : State} {v : Verdict} (h : multiFragment f s = (v, t)) :
    (v.isDrop = true ∧ t = s) ∨ Filed f s v t := by
  unfold multiFragment at h
  split at h
  · rename_i k b hl
    split at h
    · cases h
      exact .inl ⟨rfl, rfl⟩
    · rename_i ht
      exact storeFragment_cases h (.inl ⟨hl, by simpa using ht⟩)
  · rename_i hl
    split at h
    · cases h
      exact .inl ⟨rfl, rfl⟩
    · rename_i k hf
      exact storeFragment_cases h (.inr ⟨hl, hf, rfl⟩)

/-- Everything the filters and the arbiter can do with a frame whose payload is whole. -/
theorem filterFrame_cases {f : Frame} {s t : State} {v : Verdict} (hp : f.payload.length = 50)
    (h : filterFrame f s = (v, t)) :
    (v.isDrop = true ∧ t = s) ∨ (Acceptable s.cfg f ∧
      ((v = .single ∧ f.frameTotal = 1#8 ∧ t = singleFragment f s) ∨ (f.frameTotal ≠ 1#8 ∧ Filed f s v t))) := by
  unfold filterFrame at h
  split at h
  · cases h
    exact .inl ⟨rfl, rfl⟩
  · rename_i hpre
    split at h
    · cases h
      exact .inl ⟨rfl, rfl⟩
    · rename_i hdst
      split at h
      · cases h
        exact .inl ⟨rfl, rfl⟩
      · rename_i hr
        obtain ⟨h1, h2, h3⟩ := not_outOfRange (s := s) (by simpa using hr)
        have hacc : Acceptable s.cfg f := ⟨by simpa using hpre, by simpa using hdst, hp, h1, h2, h3⟩
        split at h
        · rename_i hn
          cases h
          exact .inr ⟨hacc, .inl ⟨rfl, hn, rfl⟩⟩
        · rename_i hn
          rcases multiFragment_cases h with h | h
          · exact .inl h
          · exact .inr ⟨hacc, .inr ⟨hn, h⟩⟩

/-- Everything the data path can do with a block. -/
theorem deframe_cases {rx : List Byte} {s t : State} {v : Verdict} (h : deframe rx s = .ok (v, t)) :
    (v.isDrop = true ∧ t = s) ∨
      ∃ f, Frame.decode rx = .ok f ∧ isValid f = .ok true ∧ Acceptable s.cfg f ∧
        ((v = .single ∧ f.frameTotal = 1#8 ∧ t = singleFragment f s) ∨ (f.frameTotal ≠ 1#8 ∧ Filed f s v t)) := by
  unfold deframe at h
  split at h
  · cases h
    exact .inl ⟨rfl, rfl⟩
  · split at h
    · cases h
      exact .inl ⟨rfl, rfl⟩
    · rename_i f hd
      split at h
      · cases h
      · cases h
        exact .inl ⟨rfl, rfl⟩
      · rename_i hv
        rcases filterFrame_cases (toWire_of_decode hd).2.2 (Except.ok.inj h) with h | h
        · exact .inl h
        · exact .inr ⟨f, hd, hv, h⟩

/-- The data path never faults: a decoded frame's payload fits (R122). -/
theorem deframe_total (rx : List Byte) (s : State) : ∃ v t, deframe rx s = .ok (v, t) := by
  unfold deframe
  split
  · exact ⟨_, _, rfl⟩
  · split
    · exact ⟨_, _, rfl⟩
    · rename_i f hd
      rw [isValid_of_decode hd]
      cases crc32 (frameBody f) == f.crc
      · exact ⟨_, _, rfl⟩
      · exact ⟨_, _, rfl⟩

/-- A good block reaches the filters. -/
theorem deframe_of_valid {rx : List Byte} {f : Frame} (s : State) (hd : Frame.decode rx = .ok f)
    (hv : isValid f = .ok true) : deframe rx s = .ok (filterFrame f s) := by
  have hne : rx ≠ [] := by
    intro h
    have := decode_length hd
    simp [h] at this
  unfold deframe
  rw [if_neg hne, hd]
  simp only
  rw [hv]

/-- The filters let an acceptable frame through to the arbiter. -/
theorem filterFrame_acceptable {f : Frame} {s : State} (h : Acceptable s.cfg f) :
    filterFrame f s = if f.frameTotal = 1#8 then (.single, singleFragment f s) else multiFragment f s := by
  unfold filterFrame
  rw [if_neg (by simp [h.preamble]), if_neg (by simp [h.dest]),
    if_neg (by simp [outOfRange_eq_false h.orderLow h.orderMax h.totalMax])]

/-- A data frame at any other address is dropped (R155). -/
theorem filterFrame_not_host {f : Frame} (s : State) (hp : f.preamble = Config.preData)
    (hd : f.dest ≠ Config.addrHost) : filterFrame f s = (.dest, s) := by
  unfold filterFrame
  rw [if_neg (by simp [hp]), if_pos hd]

/-- The filters and the arbiter do not read the source address (R170). -/
theorem filterFrame_src (f : Frame) (src : Byte) (s : State) : filterFrame { f with src := src } s = filterFrame f s := rfl

theorem deframe_frame {rx : List Byte} {s t : State} {v : Verdict} (h : deframe rx s = .ok (v, t)) :
    SameSettings s t ∧ SameSendSide s t ∧ t.discState = s.discState ∧ t.discWait = s.discWait
      ∧ t.rxRaw = s.rxRaw := by
  rcases deframe_cases h with ⟨-, rfl⟩ | ⟨f, -, -, -, h⟩
  · exact ⟨SameSettings.refl _, SameSendSide.refl _, rfl, rfl, rfl⟩
  · rcases h with ⟨-, -, rfl⟩ | ⟨-, k, b, -, -, ⟨-, -, rfl⟩ | ⟨-, -, rfl⟩⟩ <;>
      exact ⟨⟨rfl, rfl, rfl, rfl, rfl, rfl, rfl, rfl, rfl⟩, ⟨rfl, rfl, rfl, rfl, rfl⟩, rfl, rfl, rfl⟩

/-! ### The discovery check (R167) -/

theorem goodReply_total (rx : List Byte) : ∃ g, goodReply rx = .ok g := by
  unfold goodReply
  split
  · exact ⟨_, rfl⟩
  · rename_i f hd
    rw [isValid_of_decode hd]
    exact ⟨_, rfl⟩

theorem discObserve_total (rx : List Byte) (s : State) : ∃ t, discObserve rx s = .ok t := by
  obtain ⟨g, hg⟩ := goodReply_total rx
  unfold discObserve
  rw [hg]
  split
  · split
    · exact ⟨_, rfl⟩
    · cases g <;> exact ⟨_, rfl⟩
  · exact ⟨_, rfl⟩

/-- The discovery check writes `disc_state` and `disc_wait` only. -/
theorem discObserve_cases {rx : List Byte} {s t : State} (h : discObserve rx s = .ok t) :
    ∃ d w, t = { s with discState := d, discWait := w } ∧
      (d = s.discState ∨ (s.discOutstanding = true ∧ (d = .ok ∨ d = .fail))) := by
  unfold discObserve at h
  split at h
  · rename_i ho
    split at h
    · cases h
      unfold discTimeoutTick
      split
      · exact ⟨_, _, rfl, .inr ⟨ho, .inr rfl⟩⟩
      · exact ⟨_, _, rfl, .inl rfl⟩
    · split at h
      · cases h
      · cases h
        exact ⟨_, _, rfl, .inr ⟨ho, .inl rfl⟩⟩
      · cases h
        exact ⟨_, _, rfl, .inr ⟨ho, .inr rfl⟩⟩
  · cases h
    exact ⟨_, _, rfl, .inl rfl⟩

/-! ### The outgoing phase (R184) -/

theorem messageSlice_length (m : List Byte) (i : Nat) : (messageSlice m i).length ≤ 50 := by
  rw [messageSlice, slice_length]
  simp only [Config.payloadLen]
  omega

theorem fragments_fit {dst : Byte} {id : Word} {m : List Byte} : ∀ f ∈ fragments dst id m, f.payload.length ≤ 50 := by
  intro f hf
  simp only [fragments, List.mem_map] at hf
  obtain ⟨i, -, rfl⟩ := hf
  exact messageSlice_length m i

/-- Sending a message never faults: every slice fits (R122, R186). -/
theorem sendMessage_eq (m : List Byte) (s : State) :
    sendMessage m s = .ok (s.drawn.emitTx ((fragments s.dstAddr s.nextId m).map wireOf)) := by
  unfold sendMessage
  rw [encodeAll_ok fragments_fit]

theorem sendRequest_eq (s : State) :
    sendRequest s = .ok (if s.discPending then
      (s.drawn.emitTx [wireOf (discRequest s.dstAddr s.nextId)]).setDiscRequest false 0#32 else s) := by
  unfold sendRequest
  rw [encodeFrame_ok (by simp [discRequest])]
  split <;> rfl

theorem sendHead_cases {s t : State} (h : sendHead s = .ok t) :
    (s.txq = [] ∧ t = s) ∨ ∃ m rest, s.txq = m :: rest ∧
      t = ((s.setTxq rest).drawn.emitTx ((fragments s.dstAddr s.nextId m).map wireOf)) := by
  unfold sendHead at h
  split at h
  · rename_i hq
    cases h
    exact .inl ⟨hq, rfl⟩
  · rename_i m rest hq
    rw [sendMessage_eq] at h
    cases h
    exact .inr ⟨m, rest, hq, rfl⟩

/-- What the outgoing phase emits, in order: the pending request, then the frames of the head message (R184). -/
def Emitted (s : State) (request frames : List (List Byte)) : Prop :=
  ((s.discPending = false ∧ request = []) ∨
    (s.discPending = true ∧ request = [wireOf (discRequest s.dstAddr s.nextId)])) ∧
  ((s.txq = [] ∧ frames = []) ∨
    ∃ m rest id, s.txq = m :: rest ∧ frames = (fragments s.dstAddr id m).map wireOf)

theorem outgoing_cases {s t : State} (h : outgoing s = .ok t) :
    t.txq = s.txq.tail ∧ t.discPending = false ∧
      ∃ request frames, t.txRaw = s.txRaw ++ request ++ frames ∧ Emitted s request frames := by
  unfold outgoing at h
  rw [sendRequest_eq] at h
  cases hp : s.discPending <;> simp only [hp, if_true, Bool.false_eq_true, if_false] at h <;>
    rcases sendHead_cases h with ⟨hq, rfl⟩ | ⟨m, rest, hq, rfl⟩
  · exact ⟨by simp [hq], hp, [], [], by simp, .inl ⟨hp, rfl⟩, .inl ⟨hq, rfl⟩⟩
  · exact ⟨by rw [hq]; rfl, hp, [], _, by rw [List.append_nil]; rfl, .inl ⟨hp, rfl⟩, .inr ⟨m, rest, _, hq, rfl⟩⟩
  · replace hq : s.txq = [] := hq
    exact ⟨by rw [hq]; exact hq, rfl, _, [], by rw [List.append_nil]; rfl, .inr ⟨hp, rfl⟩, .inl ⟨hq, rfl⟩⟩
  · replace hq : s.txq = m :: rest := hq
    exact ⟨by rw [hq]; rfl, rfl, _, _, rfl, .inr ⟨hp, rfl⟩, .inr ⟨m, rest, _, hq, rfl⟩⟩

/-- With nothing to send the outgoing phase does nothing. -/
theorem outgoing_idle {s : State} (hp : s.discPending = false) (hq : s.txq = []) : outgoing s = .ok s := by
  simp [outgoing, sendRequest, hp, sendHead, hq]

theorem outgoing_total (s : State) : ∃ t, outgoing s = .ok t := by
  unfold outgoing
  rw [sendRequest_eq]
  simp only
  unfold sendHead
  split
  · exact ⟨_, rfl⟩
  · exact ⟨_, sendMessage_eq _ _⟩

theorem outgoing_frame {s t : State} (h : outgoing s = .ok t) : SameSettings s t ∧ SameReceiveSide s t := by
  unfold outgoing at h
  rw [sendRequest_eq] at h
  simp only at h
  have h1 : SameSettings s (if s.discPending then
      (s.drawn.emitTx [wireOf (discRequest s.dstAddr s.nextId)]).setDiscRequest false 0#32 else s) ∧
      SameReceiveSide s (if s.discPending then
      (s.drawn.emitTx [wireOf (discRequest s.dstAddr s.nextId)]).setDiscRequest false 0#32 else s) := by
    split
    · exact ⟨⟨rfl, rfl, rfl, rfl, rfl, rfl, rfl, rfl, rfl⟩, ⟨rfl, rfl, rfl, rfl, rfl, rfl⟩⟩
    · exact ⟨SameSettings.refl _, SameReceiveSide.refl _⟩
  rcases sendHead_cases h with ⟨-, rfl⟩ | ⟨m, rest, -, rfl⟩
  · exact h1
  · exact ⟨h1.1.trans ⟨rfl, rfl, rfl, rfl, rfl, rfl, rfl, rfl, rfl⟩,
      h1.2.trans ⟨rfl, rfl, rfl, rfl, rfl, rfl⟩⟩

/-! ### The whole TICK (R140) -/

theorem incoming_cases {rx : List Byte} {s t : State} (h : incoming rx s = .ok t) :
    ∃ u v, discObserve rx s = .ok u ∧ deframe rx u = .ok (v, t) := by
  unfold incoming at h
  split at h
  · cases h
  · rename_i u hu
    split at h
    · cases h
    · rename_i v w hw
      cases h
      exact ⟨u, v, hu, hw⟩

/-- A running TICK is ageing, then the discovery check, then the data path, then the outgoing phase (R142). -/
theorem runTick_cases {rx : List Byte} {s t : State} (h : runTick rx s = .ok t) :
    ∃ u v w, discObserve rx (ageBuckets (s.takeRx rx)) = .ok u ∧ deframe rx u = .ok (v, w) ∧ outgoing w = .ok t := by
  unfold runTick at h
  split at h
  · cases h
  · rename_i w hw
    obtain ⟨u, v, hu, hv⟩ := incoming_cases hw
    exact ⟨u, v, w, hu, hv, h⟩

theorem runTick_total (rx : List Byte) (s : State) : ∃ t, runTick rx s = .ok t := by
  unfold runTick incoming
  obtain ⟨u, hu⟩ := discObserve_total rx (ageBuckets (s.takeRx rx))
  obtain ⟨v, w, hw⟩ := deframe_total rx u
  rw [hu]
  simp only
  rw [hw]
  simp only
  exact outgoing_total w

theorem discObserve_frame {rx : List Byte} {s t : State} (h : discObserve rx s = .ok t) :
    SameSettings s t ∧ SameSendSide s t ∧ t.slots = s.slots ∧ t.lastMsg = s.lastMsg ∧ t.lastSeq = s.lastSeq
      ∧ t.msgRx = s.msgRx ∧ t.rxRaw = s.rxRaw := by
  obtain ⟨d, w, rfl, -⟩ := discObserve_cases h
  exact ⟨⟨rfl, rfl, rfl, rfl, rfl, rfl, rfl, rfl, rfl⟩, ⟨rfl, rfl, rfl, rfl, rfl⟩, rfl, rfl, rfl, rfl, rfl⟩

/-- No TICK writes the settings. -/
theorem tick_settings {rx : List Byte} {s t : State} (h : tick rx s = .ok t) : SameSettings s t := by
  unfold tick at h
  split at h
  · obtain ⟨u, v, w, hu, hw, ht⟩ := runTick_cases h
    have h0 : SameSettings s (ageBuckets (s.takeRx rx)) := ⟨rfl, rfl, rfl, rfl, rfl, rfl, rfl, rfl, rfl⟩
    exact ((h0.trans (discObserve_frame hu).1).trans (deframe_frame hw).1).trans (outgoing_frame ht).1
  · cases h
    exact SameSettings.refl s

theorem tick_total (rx : List Byte) (s : State) : ∃ t, tick rx s = .ok t := by
  unfold tick
  split
  · exact runTick_total rx s
  · exact ⟨s, rfl⟩

/-- `outcome` answers a next state exactly for `.ok`. -/
theorem outcome_eq_next {r : Except Fault State} {t : State} : outcome r = .next t ↔ r = .ok t := by
  cases r <;> simp [outcome]

theorem sendHead_nil {s : State} (h : s.txq = []) : sendHead s = .ok s := by
  unfold sendHead
  rw [h]

theorem sendHead_cons {s : State} {m : List Byte} {rest : List (List Byte)} (h : s.txq = m :: rest) :
    sendHead s = .ok ((s.setTxq rest).drawn.emitTx ((fragments s.dstAddr s.nextId m).map wireOf)) := by
  unfold sendHead
  rw [h]
  exact sendMessage_eq m (s.setTxq rest)

theorem satSucc_toNat (w : Word) : (satSucc w).toNat = min (w.toNat + 1) 0xFFFFFFFF := by
  unfold satSucc
  rw [BitVec.toNat_ofNat]
  omega

end Sys2Proof.Machine
end

