-- ==== Sys2Proof/Tests/Slice0.lean ====
section
/-! SUPPORT. Tests of single steps, and a witness for the hypotheses of every statement that has some. Expected results
come from spec/95_test_vectors.md (the vector is named) or from the encoding tables of spec/30_encoding.md. -/

namespace Sys2Proof.Tests

open Sys2Proof Sys2Proof.Machine

/-! ### Helpers -/

/-- The outcome is a next state with a property. -/
def nextIs (o : Host.Outcome State Fault Refusal) (p : State → Bool) : Bool :=
  match o with
  | .next t => p t
  | .fault _ => false
  | .refused _ => false

/-- The transfer decodes to the instruction. -/
def decodesTo (t : Transfer) (i : Instr) : Bool :=
  match decode t with
  | .ok j => i == j
  | .error _ => false

/-- The last answer is a value. -/
def answers (v : Word) (t : State) : Bool := t.replies == [.value v]

/-- `S0` (95_test_vectors.md §1): after `reset; start`. -/
def S0 : State := { State.reset with en := true }

/-- The wire bytes of a frame: its first ten, its payload, its CRC bytes. -/
def wire (header payload crc : List Byte) : List Byte := header ++ payload ++ crc

/-- "hello". -/
def hello : List Byte := [0x68#8, 0x65#8, 0x6C#8, 0x6C#8, 0x6F#8]

/-- Frames of 95_test_vectors.md §4.4, by their bytes. -/
def A1 : List Byte :=
  wire [0x01#8, 0x00#8, 0x01#8, 0x02#8, 0xA1#8, 0xA1#8, 0xA1#8, 0xA1#8, 0x01#8, 0x02#8] (patBytes 50)
    [0x5F#8, 0x2D#8, 0xE0#8, 0x13#8]

def A2 : List Byte :=
  wire [0x01#8, 0x00#8, 0x01#8, 0x02#8, 0xA1#8, 0xA1#8, 0xA1#8, 0xA1#8, 0x02#8, 0x02#8] (patBytes 50)
    [0x48#8, 0x29#8, 0xB5#8, 0xA9#8]

def A0 : List Byte :=
  wire [0x01#8, 0x00#8, 0x01#8, 0x02#8, 0xA1#8, 0xA1#8, 0xA1#8, 0xA1#8, 0x00#8, 0x02#8] (patBytes 50)
    [0x52#8, 0xD1#8, 0x2C#8, 0x7A#8]

def A3of2 : List Byte :=
  wire [0x01#8, 0x00#8, 0x01#8, 0x02#8, 0xA1#8, 0xA1#8, 0xA1#8, 0xA1#8, 0x03#8, 0x02#8] (patBytes 50)
    [0x45#8, 0xD5#8, 0x79#8, 0xC0#8]

def AT0 : List Byte :=
  wire [0x01#8, 0x00#8, 0x01#8, 0x02#8, 0xA1#8, 0xA1#8, 0xA1#8, 0xA1#8, 0x01#8, 0x00#8] (patBytes 50)
    [0x38#8, 0xCC#8, 0xEC#8, 0x5C#8]

def A2of3 : List Byte :=
  wire [0x01#8, 0x00#8, 0x01#8, 0x02#8, 0xA1#8, 0xA1#8, 0xA1#8, 0xA1#8, 0x02#8, 0x03#8] (patBytes 50)
    [0xDB#8, 0xDA#8, 0x8B#8, 0x63#8]

def Apre : List Byte :=
  wire [0x01#8, 0x01#8, 0x01#8, 0x02#8, 0xA1#8, 0xA1#8, 0xA1#8, 0xA1#8, 0x01#8, 0x01#8]
    ([0x68#8, 0x69#8] ++ zeros 48) [0xFA#8, 0xCF#8, 0x8D#8, 0x80#8]

def Adst0 : List Byte :=
  wire [0x01#8, 0x00#8, 0x00#8, 0x02#8, 0xA1#8, 0xA1#8, 0xA1#8, 0xA1#8, 0x01#8, 0x01#8]
    ([0x68#8, 0x69#8] ++ zeros 48) [0x98#8, 0xC5#8, 0x06#8, 0xA3#8]

def Bh : List Byte :=
  wire [0x01#8, 0x00#8, 0x01#8, 0x02#8, 0xB2#8, 0xB2#8, 0xB2#8, 0xB2#8, 0x01#8, 0x01#8] (hello ++ zeros 45)
    [0xC9#8, 0x5C#8, 0xD8#8, 0x03#8]

/-- V-ENC-1. -/
def enc1 : List Byte :=
  wire [0x01#8, 0x00#8, 0x02#8, 0x01#8, 0x78#8, 0x56#8, 0x34#8, 0x12#8, 0x01#8, 0x01#8] (hello ++ zeros 45)
    [0x21#8, 0xDF#8, 0x88#8, 0x10#8]

/-- V-DISC-REQ. -/
def discReq : List Byte :=
  wire [0x02#8, 0x00#8, 0x02#8, 0x01#8, 0xEF#8, 0xBE#8, 0xAD#8, 0x0B#8, 0x01#8, 0x01#8] (zeros 50)
    [0x50#8, 0xAB#8, 0xEE#8, 0x3B#8]

/-- `RSP` of 95_test_vectors.md §4.4. -/
def rsp : List Byte :=
  wire [0x03#8, 0x00#8, 0x01#8, 0x02#8, 0xEF#8, 0xBE#8, 0xAD#8, 0x0B#8, 0x01#8, 0x01#8] (zeros 50)
    [0xC6#8, 0x43#8, 0x8B#8, 0x07#8]

/-- The same frames as records. -/
def fA1 : Frame := ⟨0x0001#16, 1#8, 2#8, 0xA1A1A1A1#32, 1#8, 2#8, patBytes 50, 0x13E02D5F#32⟩

def fA2 : Frame := ⟨0x0001#16, 1#8, 2#8, 0xA1A1A1A1#32, 2#8, 2#8, patBytes 50, 0xA9B52948#32⟩

def fA2of3 : Frame := ⟨0x0001#16, 1#8, 2#8, 0xA1A1A1A1#32, 2#8, 3#8, patBytes 50, 0x638BDADB#32⟩

def fBh : Frame := ⟨0x0001#16, 1#8, 2#8, 0xB2B2B2B2#32, 1#8, 1#8, hello ++ zeros 45, 0x03D85CC9#32⟩

def fReq : Frame := ⟨0x0002#16, 2#8, 1#8, 0x0BADBEEF#32, 1#8, 1#8, zeros 50, 0x3BEEAB50#32⟩

def fRsp : Frame := ⟨0x0003#16, 1#8, 2#8, 0x0BADBEEF#32, 1#8, 1#8, zeros 50, 0x078B43C6#32⟩

def fPre : Frame := ⟨0x0101#16, 1#8, 2#8, 0xA1A1A1A1#32, 1#8, 1#8, [0x68#8, 0x69#8] ++ zeros 48, 0x808DCFFA#32⟩

/-- `S0` after A1: slot 0 holds fragment 1 of 2. -/
def bucketA : Bucket := ⟨0xA1A1A1A1#32, 2#8, [(1, patBytes 50)], 0#32⟩

def held : State := { S0 with slots := [some bucketA, none] }

/-- `S0` with bucket A of total 3. -/
def bucketA3 : Bucket := ⟨0xA1A1A1A1#32, 3#8, [(1, patBytes 50)], 0#32⟩

def held3 : State := { S0 with slots := [some bucketA3, none] }

/-- `S0` with a full store. -/
def full : State := { S0 with slots := [some ⟨0xB2B2B2B2#32, 2#8, [(1, patBytes 50)], 0#32⟩,
  some ⟨0xC3C3C3C3#32, 2#8, [(2, patBytes 50)], 0#32⟩] }

/-- A request has gone out (95_test_vectors.md §4.4: `STATUS = 0x00000005`). -/
def waiting : State := { S0 with dstAddr := 2#8, discState := .wait }

/-! ### WellFormed: each check refuses an ill-formed term -/

theorem test_wf_cmdReserved : Instr.wellFormed (.cmdReserved 0x06#8 0#8 0#16) = false := by decide

theorem test_wf_rdLastData_misaligned : Instr.wellFormed (.rdLastData 0x4001#15) = false := by decide

theorem test_wf_rdLastData_low : Instr.wellFormed (.rdLastData 0x3FFC#15) = false := by decide

theorem test_wf_rdMisaligned : Instr.wellFormed (.rdMisaligned 0x0004#15) = false := by decide

theorem test_wf_rdReserved : Instr.wellFormed (.rdReserved 0x0020#15) = false := by decide

theorem test_wf_rdReserved_window : Instr.wellFormed (.rdReserved 0x4000#15) = false := by decide

theorem test_wf_wrLastData : Instr.wellFormed (.wrLastData 0x0000#15 0#32) = false := by decide

theorem test_wf_wrMisaligned : Instr.wellFormed (.wrMisaligned 0x7FFC#15 0#32) = false := by decide

theorem test_wf_wrReserved : Instr.wellFormed (.wrReserved 0x0026#15 0#32) = false := by decide

theorem test_wf_frameData_preamble : Instr.wellFormed (.frameData fReq) = false := by decide

theorem test_wf_frameData_payload : Instr.wellFormed (.frameData { fBh with payload := hello }) = false := by decide

theorem test_wf_frameDiscReq : Instr.wellFormed (.frameDiscReq fRsp) = false := by decide

theorem test_wf_frameDiscRsp : Instr.wellFormed (.frameDiscRsp fBh) = false := by decide

theorem test_wf_frameReserved : Instr.wellFormed (.frameReserved fRsp) = false := by decide

/-! ### Decoding: a word of every row, written out from the tables of 30_encoding.md -/

theorem test_decode_reset : decodesTo ⟨.event, [0x00#8]⟩ .reset = true := by decide

theorem test_decode_tick : decodesTo ⟨.event, [0x01#8, 0xAA#8, 0x55#8]⟩ (.tick [0xAA#8, 0x55#8]) = true := by decide

theorem test_decode_submit : decodesTo ⟨.event, [0x02#8, 0x61#8]⟩ (.submit [0x61#8]) = true := by decide

theorem test_decode_regRead : decodesTo ⟨.event, [0x03#8, 0x18#8, 0x40#8]⟩ (.regRead 0x4018#15) = true := by decide

theorem test_decode_regWrite :
    decodesTo ⟨.event, [0x04#8, 0x10#8, 0x00#8, 0x78#8, 0x56#8, 0x34#8, 0x12#8]⟩ (.regWrite 0x0010#15 0x12345678#32)
      = true := by decide

theorem test_decode_event_tags :
    ([0x5#8, 0xF#8, 0x10#8].map fun tag => match decode ⟨.event, [tag]⟩ with
      | .ok _ => none
      | .error e => some e) = [some (.noEvent 0x5#8), some (.noEvent 0xF#8), some (.tagRange 0x10#8)] := by decide

theorem test_decode_nop : decodesTo ⟨.cmd, [0x00#8, 0x00#8, 0xFF#8, 0xFF#8]⟩ (.nop 0x00#8 0xFFFF#16) = true := by decide

theorem test_decode_crcInit : decodesTo ⟨.cmd, [0x01#8, 0x00#8, 0x00#8, 0x00#8]⟩ (.crcInit 0#8 0#16) = true := by decide

/-- V-CRC-JUNK's word 0xABCD3102. -/
theorem test_decode_crcByte : decodesTo ⟨.cmd, [0x02#8, 0x31#8, 0xCD#8, 0xAB#8]⟩ (.crcByte 0x31#8 0xABCD#16) = true := by
  decide

theorem test_decode_start : decodesTo ⟨.cmd, [0x03#8, 0x00#8, 0x00#8, 0x00#8]⟩ (.start 0#8 0#16) = true := by decide

theorem test_decode_stop : decodesTo ⟨.cmd, [0x04#8, 0x00#8, 0x00#8, 0x00#8]⟩ (.stop 0#8 0#16) = true := by decide

theorem test_decode_softReset : decodesTo ⟨.cmd, [0x05#8, 0x00#8, 0x00#8, 0x00#8]⟩ (.softReset 0#8 0#16) = true := by
  decide

theorem test_decode_discStart : decodesTo ⟨.cmd, [0x06#8, 0x00#8, 0x00#8, 0x00#8]⟩ (.discStart 0#8 0#16) = true := by
  decide

theorem test_decode_cmdReserved_first : decodesTo ⟨.cmd, [0x07#8, 0x00#8, 0x00#8, 0x00#8]⟩ (.cmdReserved 7#8 0#8 0#16)
    = true := by decide

/-- V-CMD-RES80's word 0x12345680. -/
theorem test_decode_cmdReserved : decodesTo ⟨.cmd, [0x80#8, 0x56#8, 0x34#8, 0x12#8]⟩
    (.cmdReserved 0x80#8 0x56#8 0x1234#16) = true := by decide

theorem test_decode_rdCmd : decodesTo ⟨.reg, [0x00#8, 0x00#8]⟩ .rdCmd = true := by decide

theorem test_decode_rdStatus : decodesTo ⟨.reg, [0x04#8, 0x00#8]⟩ .rdStatus = true := by decide

theorem test_decode_rdAddr : decodesTo ⟨.reg, [0x08#8, 0x00#8]⟩ .rdAddr = true := by decide

theorem test_decode_rdCrcResult : decodesTo ⟨.reg, [0x0C#8, 0x00#8]⟩ .rdCrcResult = true := by decide

theorem test_decode_rdBucketTtl : decodesTo ⟨.reg, [0x10#8, 0x00#8]⟩ .rdBucketTtl = true := by decide

theorem test_decode_rdDiscTimeout : decodesTo ⟨.reg, [0x14#8, 0x00#8]⟩ .rdDiscTimeout = true := by decide

theorem test_decode_rdLastSeq : decodesTo ⟨.reg, [0x18#8, 0x00#8]⟩ .rdLastSeq = true := by decide

theorem test_decode_rdLastLen : decodesTo ⟨.reg, [0x1C#8, 0x00#8]⟩ .rdLastLen = true := by decide

theorem test_decode_rdConfig : decodesTo ⟨.reg, [0x20#8, 0x00#8]⟩ .rdConfig = true := by decide

theorem test_decode_rdLastData : decodesTo ⟨.reg, [0xFC#8, 0x7F#8]⟩ (.rdLastData 0x7FFC#15) = true := by decide

theorem test_decode_rdMisaligned : decodesTo ⟨.reg, [0x05#8, 0x00#8]⟩ (.rdMisaligned 0x0005#15) = true := by decide

theorem test_decode_rdReserved : decodesTo ⟨.reg, [0x24#8, 0x00#8]⟩ (.rdReserved 0x0024#15) = true := by decide

theorem test_decode_wrCmd : decodesTo ⟨.reg, [0x00#8, 0x80#8, 0x03#8, 0x00#8, 0x00#8, 0x00#8]⟩ (.wrCmd 3#32) = true := by
  decide

theorem test_decode_wrStatus : decodesTo ⟨.reg, [0x04#8, 0x80#8, 0x02#8, 0x00#8, 0x00#8, 0x00#8]⟩ (.wrStatus 2#32)
    = true := by decide

theorem test_decode_wrAddr : decodesTo ⟨.reg, [0x08#8, 0x80#8, 0x02#8, 0x01#8, 0x00#8, 0x00#8]⟩ (.wrAddr 0x102#32)
    = true := by decide

theorem test_decode_wrCrcResult : decodesTo ⟨.reg, [0x0C#8, 0x80#8, 0x05#8, 0x00#8, 0x00#8, 0x00#8]⟩
    (.wrCrcResult 5#32) = true := by decide

theorem test_decode_wrBucketTtl : decodesTo ⟨.reg, [0x10#8, 0x80#8, 0xFF#8, 0xFF#8, 0xFF#8, 0xFF#8]⟩
    (.wrBucketTtl 0xFFFFFFFF#32) = true := by decide

theorem test_decode_wrDiscTimeout : decodesTo ⟨.reg, [0x14#8, 0x80#8, 0x04#8, 0x00#8, 0x00#8, 0x00#8]⟩
    (.wrDiscTimeout 4#32) = true := by decide

theorem test_decode_wrLastSeq : decodesTo ⟨.reg, [0x18#8, 0x80#8, 0x05#8, 0x00#8, 0x00#8, 0x00#8]⟩
    (.wrLastSeq 5#32) = true := by decide

theorem test_decode_wrLastLen : decodesTo ⟨.reg, [0x1C#8, 0x80#8, 0x05#8, 0x00#8, 0x00#8, 0x00#8]⟩
    (.wrLastLen 5#32) = true := by decide

theorem test_decode_wrConfig : decodesTo ⟨.reg, [0x20#8, 0x80#8, 0x05#8, 0x00#8, 0x00#8, 0x00#8]⟩
    (.wrConfig 5#32) = true := by decide

theorem test_decode_wrLastData : decodesTo ⟨.reg, [0x00#8, 0xC0#8, 0x05#8, 0x00#8, 0x00#8, 0x00#8]⟩
    (.wrLastData 0x4000#15 5#32) = true := by decide

theorem test_decode_wrMisaligned : decodesTo ⟨.reg, [0x01#8, 0x80#8, 0x03#8, 0x00#8, 0x00#8, 0x00#8]⟩
    (.wrMisaligned 0x0001#15 3#32) = true := by decide

theorem test_decode_wrReserved : decodesTo ⟨.reg, [0xFC#8, 0xBF#8, 0x05#8, 0x00#8, 0x00#8, 0x00#8]⟩
    (.wrReserved 0x3FFC#15 5#32) = true := by decide

theorem test_decode_frameData : decodesTo ⟨.frame, Bh⟩ (.frameData fBh) = true := by decide

theorem test_decode_frameDiscReq : decodesTo ⟨.frame, discReq⟩ (.frameDiscReq fReq) = true := by decide

theorem test_decode_frameDiscRsp : decodesTo ⟨.frame, rsp⟩ (.frameDiscRsp fRsp) = true := by decide

theorem test_decode_frameReserved : decodesTo ⟨.frame, Apre⟩ (.frameReserved fPre) = true := by decide

/-! ### CRC and codec vectors -/

/-- V-CRC-STEP. -/
theorem test_crcStep : [crcStep 0x00000000#32 0x01#8, crcStep 0x00000000#32 0x80#8, crcStep 0xFFFFFFFF#32 0x00#8,
    crcStep 0xFFFFFFFF#32 0x31#8] = [0x77073096#32, 0xEDB88320#32, 0x2DFD1072#32, 0x7C231048#32] := by decide +kernel

/-- V-CRC-FN: `[]`, `[0x00]`, "hello", "123456789". -/
theorem test_crc32 : [crc32 [], crc32 [0x00#8], crc32 hello,
    crc32 [0x31#8, 0x32#8, 0x33#8, 0x34#8, 0x35#8, 0x36#8, 0x37#8, 0x38#8, 0x39#8]]
    = [0x00000000#32, 0xD202EF8D#32, 0x3610A686#32, 0xCBF43926#32] := by decide +kernel

/-- V-ENC-1. -/
theorem test_encodeFrame : (match encodeFrame ⟨0x0001#16, 2#8, 1#8, 0x12345678#32, 1#8, 1#8, hello, 0#32⟩ with
    | .ok b => b == enc1
    | .error _ => false) = true := by decide +kernel

/-- V-DISC-BADCRC's block, V-RX-BADCRC's kind of error: one bit of a stored CRC flipped. -/
theorem test_crc_flip : (match deframe (flipBit A1 511) S0 with
    | .ok p => p == (.crc, S0)
    | .error _ => false) = true := by decide +kernel

/-! ### One event each -/

/-- V-RESET-2: `en` is 0 again. -/
theorem test_reset : nextIs (exec .reset held) (fun t => t == { State.reset with en := false }) = true := by decide

/-- V-RX-FIRST, as a TICK: `STATUS = 0x00000101`. -/
theorem test_tick_first : nextIs (exec (.tick A1) S0) (fun t => statusWord t == 0x00000101#32 && t.msgRx == []) = true := by
  decide +kernel

/-- V-TTL-1, the second tick: the bucket is freed before the fragment arrives, which starts a new one. -/
theorem test_tick_expiry : nextIs (exec (.tick A2) { held with bucketTtl := 1#32 })
    (fun t => statusWord t == 0x00000101#32 && t.lastSeq == 0#32) = true := by decide +kernel

/-- V-SUB-STOPPED: `STATUS = 0x00010000`. -/
theorem test_submit : nextIs (exec (.submit [0x61#8]) State.reset)
    (fun t => statusWord t == 0x00010000#32 && t.replies == [.status .accept]) = true := by decide

/-- V-SUB-FULL: the third submission of two places. -/
theorem test_submit_full : nextIs (exec (.submit [0x63#8]) { State.reset with txq := [[0x61#8], [0x62#8]] })
    (fun t => statusWord t == 0x00020000#32 && t.replies == [.status .full]) = true := by decide

/-- V-REG-MIS. -/
theorem test_regRead_misaligned : nextIs (exec (.regRead 0x0005#15) State.reset) (answers 0#32) = true := by decide

/-- V-REG-MIS: no command. -/
theorem test_regWrite_misaligned : nextIs (exec (.regWrite 0x0001#15 3#32) State.reset) (· == State.reset) = true := by
  decide

/-- V-CMD-NOP. -/
theorem test_nop : nextIs (exec (.nop 0#8 0xFFFF#16) State.reset) (· == State.reset) = true := by decide

/-- V-CRC-REINIT. -/
theorem test_crcInit : nextIs (exec (.crcInit 0#8 0#16) { State.reset with crcReg := 0x7C231048#32 })
    (fun t => crcFinal t.crcReg == 0#32) = true := by decide

/-- V-CRC-ONE. -/
theorem test_crcByte : nextIs (exec (.crcByte 0x31#8 0xABCD#16) State.reset)
    (fun t => t.crcReg == 0x7C231048#32) = true := by decide +kernel

/-- V-CMD-START. -/
theorem test_start : nextIs (exec (.start 0#8 0#16) State.reset) (fun t => statusWord t == 1#32) = true := by decide

/-- V-CMD-STOP. -/
theorem test_stop : nextIs (exec (.stop 0#8 0#16) { S0 with txq := [[0x78#8]] })
    (fun t => statusWord t == 0x00010000#32) = true := by decide

/-- Program P6: `STATUS` 0x00020117 becomes 1; `ADDR` and `DISC_TIMEOUT` stay. -/
theorem test_softReset : nextIs (exec (.softReset 0#8 0#16) { held with
      dstAddr := 2#8, txq := [[0x61#8], [0x62#8]], discState := .wait, discPending := true, cmdErr := true, lastSeq := 1#32 })
    (fun t => statusWord t == 1#32 && t.lastSeq == 0#32 && t.dstAddr == 2#8 && t.discTimeout == 16#32) = true := by decide

/-- V-DISC-STOPPED: WAIT and PENDING, not EN. -/
theorem test_discStart : nextIs (exec (.discStart 0#8 0#16) State.reset) (fun t => statusWord t == 0x14#32) = true := by
  decide

/-- V-CMD-RES80. -/
theorem test_cmdReserved : nextIs (exec (.cmdReserved 0x80#8 0x56#8 0x1234#16) S0)
    (fun t => statusWord t == 3#32 && crcFinal t.crcReg == 0#32) = true := by decide

/-- V-REG-RESET. -/
theorem test_reads_after_reset :
    (nextIs (exec .rdCmd State.reset) (answers 0#32) && nextIs (exec .rdStatus State.reset) (answers 0#32)
      && nextIs (exec .rdAddr State.reset) (answers 0#32) && nextIs (exec .rdCrcResult State.reset) (answers 0#32)
      && nextIs (exec .rdBucketTtl State.reset) (answers 0#32)
      && nextIs (exec .rdDiscTimeout State.reset) (answers 0x10#32)
      && nextIs (exec .rdLastSeq State.reset) (answers 0#32) && nextIs (exec .rdLastLen State.reset) (answers 0#32)
      && nextIs (exec .rdConfig State.reset) (answers 0x0002FF02#32)) = true := by decide

/-- V-RX-SINGLE: `LAST_DATA+0` and `LAST_DATA+4`. -/
theorem test_rdLastData : (nextIs (exec (.rdLastData 0x4000#15) { S0 with lastMsg := hello ++ zeros 45 })
      (answers 0x6C6C6568#32)
    && nextIs (exec (.rdLastData 0x4004#15) { S0 with lastMsg := hello ++ zeros 45 }) (answers 0x6F#32)) = true := by decide

/-- V-REG-RES and V-REG-MIS. -/
theorem test_reads_nothing : (nextIs (exec (.rdReserved 0x3FFC#15) S0) (answers 0#32)
    && nextIs (exec (.rdMisaligned 0x0005#15) S0) (answers 0#32)) = true := by decide

/-- V-CMD-RES: opcode 7 through a write to CMD. -/
theorem test_wrCmd : nextIs (exec (.wrCmd 7#32) State.reset) (fun t => statusWord t == 2#32) = true := by decide

/-- V-CMD-RES: a 0 does not clear, a 1 does. -/
theorem test_wrStatus : (nextIs (exec (.wrStatus 0#32) { S0 with cmdErr := true }) (fun t => statusWord t == 3#32)
    && nextIs (exec (.wrStatus 2#32) { S0 with cmdErr := true }) (fun t => statusWord t == 1#32)) = true := by decide

/-- V-REG-ADDR. -/
theorem test_wrAddr : nextIs (exec (.wrAddr 0x00000102#32) State.reset) (fun t => t.dstAddr == 2#8) = true := by decide

/-- V-REG-RW. -/
theorem test_wrBucketTtl : nextIs (exec (.wrBucketTtl 0xFFFFFFFF#32) State.reset)
    (fun t => readReg 0x0010#15 t == 0xFFFFFFFF#32) = true := by decide

/-- V-REG-RW. -/
theorem test_wrDiscTimeout : nextIs (exec (.wrDiscTimeout 0#32) State.reset)
    (fun t => readReg 0x0014#15 t == 0#32) = true := by decide

/-- V-REG-RO, V-REG-RES and V-REG-MIS: the ignored writes. -/
theorem test_writes_ignored :
    (nextIs (exec (.wrCrcResult 5#32) State.reset) (· == State.reset)
      && nextIs (exec (.wrLastSeq 5#32) State.reset) (· == State.reset)
      && nextIs (exec (.wrLastLen 5#32) State.reset) (· == State.reset)
      && nextIs (exec (.wrConfig 5#32) State.reset) (· == State.reset)
      && nextIs (exec (.wrLastData 0x4000#15 5#32) State.reset) (· == State.reset)
      && nextIs (exec (.wrMisaligned 0x0001#15 3#32) State.reset) (· == State.reset)
      && nextIs (exec (.wrReserved 0x0024#15 5#32) State.reset) (· == State.reset)) = true := by decide

/-- V-RX-SINGLE: one transfer of 50 bytes. -/
theorem test_frameData : nextIs (exec (.frameData fBh) S0) (fun t => t.msgRx == [hello ++ zeros 45]
    && t.lastSeq == 1#32 && statusWord t == 1#32) = true := by decide +kernel

/-- V-RX-FIRST then A2 (V-RX-MISMATCH's last tick): the message completes with 100 bytes. -/
theorem test_frameData_completes : nextIs (exec (.frameData fA2) held)
    (fun t => t.lastMsg == patBytes 50 ++ patBytes 50 && statusWord t == 1#32) = true := by decide +kernel

/-- A request received is dropped by the preamble filter (R154), as V-RX-PRE is. -/
theorem test_frameDiscReq : nextIs (exec (.frameDiscReq fReq) S0)
    (fun t => statusWord t == 1#32 && t.msgRx == [] && t.lastSeq == 0#32) = true := by decide +kernel

/-- V-DISC-OK. -/
theorem test_frameDiscRsp : nextIs (exec (.frameDiscRsp fRsp) waiting)
    (fun t => statusWord t == 0x09#32 && t.lastSeq == 0#32) = true := by decide +kernel

/-- V-RX-PRE, and a judged discovery fails. -/
theorem test_frameReserved : (nextIs (exec (.frameReserved fPre) S0) (fun t => statusWord t == 1#32 && t.msgRx == [])
    && nextIs (exec (.frameReserved fPre) waiting) (fun t => statusWord t == 0x0D#32)) = true := by decide +kernel

/-! ### The outgoing side -/

/-- V-DISC-REQ: the frame the first tick sends. -/
theorem test_tick_request : nextIs (exec (.tick []) { waiting with discPending := true, frameIdRand := [0x0BADBEEF#32] })
    (fun t => t.txRaw == [discReq] && statusWord t == 5#32) = true := by decide +kernel

/-- Program P2: "hello". -/
theorem test_tick_sends : nextIs (exec (.tick []) { S0 with dstAddr := 2#8, txq := [hello], frameIdRand := [0x12345678#32] })
    (fun t => t.txRaw == [enc1] && t.txq == [] && t.frameIdRand == []) = true := by decide +kernel

/-- V-TX-EMPTY, its first tick: the draw is used and nothing goes out. -/
theorem test_tick_empty_message : nextIs (exec (.tick []) { S0 with txq := [[], [0x78#8]], frameIdRand := [1#32, 2#32] })
    (fun t => t.txRaw == [] && t.frameIdRand == [2#32] && statusWord t == 0x00010001#32) = true := by decide +kernel

/-- The step runs a table word (START, R77) offered as the next event. -/
theorem test_withFetchWord : nextIs (step (State.reset.withFetchWord 32 0x00000003)) (fun t => statusWord t == 1#32) = true := by
  decide

/-- The decoder on table words: RESET (8 bits), RD_CONFIG (16), CRC_BYTE (32), WR_ADDR (48), FRAME_DISC_RSP (512). -/
theorem test_decodeTableWord : decodeTableWord 8 0x00 = some .reset ∧ decodeTableWord 16 0x0020 = some .rdConfig ∧
    decodeTableWord 32 0x00003102 = some (.crcByte 0x31#8 0#16) ∧
    decodeTableWord 48 0x000000028008 = some (.wrAddr 2#32) ∧
    decodeTableWord 16 0x0003 = some (.frameDiscRsp ⟨3#16, 0#8, 0#8, 0#32, 0#8, 0#8, zeros 50, 0#32⟩) := by decide

/-- The ends of each range of addresses (R10, R73). -/
theorem test_addressKind : addressKind 0x00#8 = .broadcast ∧ addressKind 0x01#8 = .host ∧
    addressKind 0x02#8 = .device ∧ addressKind 0x7F#8 = .device ∧ addressKind 0x80#8 = .unassigned ∧
    addressKind 0xFF#8 = .unassigned := by decide

/-! ### Witnesses: states and operands that meet the hypotheses of each statement, every clause at its ends -/

/-- A frame whose stored CRC is the one of its body is valid. -/
theorem valid_of_crc {f : Frame} (hp : f.payload.length = 50) (h : crc32 (frameBody f) = f.crc) :
    Frame.decode f.toWire = .ok f ∧ isValid f = .ok true :=
  ⟨decode_toWire hp, by rw [isValid_ok (by omega), h, beq_self_eq_true]⟩

theorem valid_A1 : Frame.decode fA1.toWire = .ok fA1 ∧ isValid fA1 = .ok true := valid_of_crc rfl (by decide +kernel)

theorem valid_A2 : Frame.decode fA2.toWire = .ok fA2 ∧ isValid fA2 = .ok true := valid_of_crc rfl (by decide +kernel)

theorem valid_A2of3 : Frame.decode fA2of3.toWire = .ok fA2of3 ∧ isValid fA2of3 = .ok true :=
  valid_of_crc rfl (by decide +kernel)

theorem valid_Bh : Frame.decode fBh.toWire = .ok fBh ∧ isValid fBh = .ok true := valid_of_crc rfl (by decide +kernel)

theorem valid_rsp : Frame.decode fRsp.toWire = .ok fRsp ∧ isValid fRsp = .ok true := valid_of_crc rfl (by decide +kernel)

theorem acceptable_A1 : Acceptable S0.cfg fA1 := ⟨rfl, rfl, rfl, by decide, by decide, by decide⟩

theorem acceptable_A2 : Acceptable S0.cfg fA2 := ⟨rfl, rfl, rfl, by decide, by decide, by decide⟩

theorem acceptable_A2of3 : Acceptable S0.cfg fA2of3 := ⟨rfl, rfl, rfl, by decide, by decide, by decide⟩

theorem acceptable_Bh : Acceptable S0.cfg fBh := ⟨rfl, rfl, rfl, by decide, by decide, by decide⟩

theorem bucketA_inv : bucketA.Inv S0.cfg :=
  ⟨by decide, by decide, by decide, by decide, by decide, by decide, by decide⟩

theorem bucketA3_inv : bucketA3.Inv S0.cfg :=
  ⟨by decide, by decide, by decide, by decide, by decide, by decide, by decide⟩

theorem held_bucketAt : held.bucketAt 0 bucketA := ⟨rfl, by intro j hj; omega⟩

theorem held3_bucketAt : held3.bucketAt 0 bucketA3 := ⟨rfl, by intro j hj; omega⟩

/-- A state with a bucket in progress meets the invariant. -/
theorem held_inv : held.Inv where
  legal := by decide
  slotCount := by decide
  distinctIds := by decide
  bucketsOk := by
    intro b hb
    rw [show held.buckets = [bucketA] from rfl, List.mem_singleton] at hb
    subst hb
    exact bucketA_inv
  queueBound := by decide
  messages := by decide
  pendingWait := by decide
  lastWhole := by decide
  lastBound := by decide
  framesSent := by decide
  delivered := by decide

theorem witness_DecodeOfEncodeIsIdentity :
    Instr.wellFormed (.cmdReserved 0x07#8 0xFF#8 0xFFFF#16) = true ∧ Instr.wellFormed (.rdLastData 0x7FFC#15) = true ∧
    Instr.wellFormed (.wrReserved 0x0024#15 0xFFFFFFFF#32) = true ∧ Instr.wellFormed (.rdReserved 0x3FFC#15) = true ∧
    Instr.wellFormed (.frameReserved fPre) = true := by decide

theorem witness_EncodeOfDecodeIsIdentity : decode ⟨.reg, [0xFC#8, 0x7F#8]⟩ = .ok (.rdLastData 0x7FFC#15) ∧
    decode ⟨.event, [0x01#8]⟩ = .ok (.tick []) := ⟨rfl, rfl⟩

/-- An offset of each class at both of its ends; the read and the write transfer exist for every offset. -/
theorem witness_RegisterRowIsDecidedByOffset :
    (0x0001#15).toNat % 4 ≠ 0 ∧ (0x7FFF#15).toNat % 4 ≠ 0 ∧
    ((0x4000#15).toNat % 4 = 0 ∧ 0x4000 ≤ (0x4000#15).toNat) ∧ ((0x7FFC#15).toNat % 4 = 0 ∧ 0x4000 ≤ (0x7FFC#15).toNat) ∧
    ((0x0024#15).toNat % 4 = 0 ∧ 0x0024 ≤ (0x0024#15).toNat ∧ (0x0024#15).toNat < 0x4000) ∧
    ((0x3FFC#15).toNat % 4 = 0 ∧ 0x0024 ≤ (0x3FFC#15).toNat ∧ (0x3FFC#15).toNat < 0x4000) ∧
    (0x0000#15).toNat = 0x0000 ∧ (0x0004#15).toNat = 0x0004 ∧ (0x0008#15).toNat = 0x0008 ∧ (0x000C#15).toNat = 0x000C ∧
    (0x0010#15).toNat = 0x0010 ∧ (0x0014#15).toNat = 0x0014 ∧ (0x0018#15).toNat = 0x0018 ∧ (0x001C#15).toNat = 0x001C ∧
    (0x0020#15).toNat = 0x0020 := by decide

theorem witness_StepRunsDecodedEvent : ∃ (s : State) (t : Transfer) (rest : List Transfer) (i : Instr),
    s.input = t :: rest ∧ decode t = .ok i :=
  ⟨{ S0 with input := [⟨.cmd, [0x04#8, 0#8, 0#8, 0#8]⟩] }, _, [], .stop 0#8 0#16, rfl, rfl⟩

theorem witness_StepWithoutAnEvent : State.reset.input = [] ∧
    (∃ (s : State) (ops : List Byte), s.input = ⟨.event, 0x5#8 :: ops⟩ :: [] ∧ 5 ≤ (0x5#8).toNat ∧ (0x5#8).toNat < 16) ∧
    (∃ (s : State) (ops : List Byte), s.input = ⟨.event, 0xF#8 :: ops⟩ :: [] ∧ 5 ≤ (0xF#8).toNat ∧ (0xF#8).toNat < 16) ∧
    (∃ (s : State) (t : Transfer) (e : DecodeError), s.input = t :: [] ∧ decode t = .error e ∧ ∀ tag, e ≠ .noEvent tag) :=
  ⟨rfl, ⟨{ S0 with input := [⟨.event, [0x5#8, 1#8]⟩] }, [1#8], rfl, by decide, by decide⟩,
    ⟨{ S0 with input := [⟨.event, [0xF#8]⟩] }, [], rfl, by decide, by decide⟩,
    ⟨{ S0 with input := [⟨.event, [0x10#8]⟩] }, _, .tagRange 0x10#8, rfl, rfl, by simp⟩⟩

theorem witness_EveryRowActsAsItsEvent : Instr.wellFormed (.cmdReserved 0xFF#8 0#8 0#16) = true ∧
    Instr.wellFormed (.rdMisaligned 0x7FFF#15) = true ∧ Instr.wellFormed (.wrLastData 0x4000#15 1#32) = true ∧
    Instr.wellFormed (.frameData fA1) = true ∧ Instr.wellFormed (.frameDiscReq fReq) = true := by decide

theorem witness_CrcDetectsEverySingleBitFlip : Frame.decode fA1.toWire = .ok fA1 ∧ isValid fA1 = .ok true ∧ 0 < 512 ∧
    511 < 512 := ⟨valid_A1.1, valid_A1.2, by decide, by decide⟩

theorem witness_EncodeFrameLayout : 50 < ({ fA1 with payload := patBytes 51 } : Frame).payload.length ∧
    fA1.payload.length ≤ 50 ∧ ({ fA1 with payload := [] } : Frame).payload.length ≤ 50 := by decide

theorem witness_DecodeFrameKeepsEveryByte : (zeros 63).length ≠ 64 ∧ (zeros 65).length ≠ 64 ∧ A1.length = 64 := by decide

theorem witness_ReceivedValidityIsCrcOfSixtyBytes : A1.length = 64 ∧ (zeros 64).length = 64 := by decide

theorem witness_EncodeDecodeRoundTrip : fA1.payload.length = 50 ∧ ({ fA1 with payload := [] } : Frame).payload.length ≤ 50 := by
  decide

theorem witness_StoppedTickChangesNothing : State.reset.en = false := rfl

theorem witness_RunningTickRunsPhasesInOrder : S0.en = true ∧ S0.txq = [] ∧ S0.discPending = false ∧
    waiting.en = true ∧ waiting.txq = [] ∧ waiting.discPending = false ∧ waiting.discState = .wait := by decide

theorem witness_AgeingExpiresBuckets : held.slots[1]? = some none ∧ held.slots[0]? = some (some bucketA) ∧
    bucketA.age = 0#32 ∧ held.bucketTtl.toNat = 0 ∧ ({ held with bucketTtl := 1#32 } : State).slots[0]? = some (some bucketA) ∧
    ({ held with bucketTtl := 1#32 } : State).bucketTtl.toNat ≠ 0 := by decide

theorem witness_RunningTickLeavesAgesBelowTtl : ({ held with bucketTtl := 2#32 } : State).en = true ∧
    ({ held with bucketTtl := 2#32 } : State).bucketTtl ≠ 0#32 ∧
    (ageBuckets { held with bucketTtl := 2#32 }).buckets ≠ [] := by decide

/-- Both kinds of outcome exist: a block that is too short is a drop, A1 is not. -/
theorem witness_DroppedFramesChangeNothing : deframe (zeros 63) S0 = .ok (.length, S0) ∧ Verdict.length.isDrop = true ∧
    (match deframe A1 S0 with
      | .ok p => p.1 == .stored && !p.1.isDrop
      | .error _ => false) = true := ⟨rfl, rfl, by decide +kernel⟩

/-- Each check with a block that reaches it: V-RX-LEN63 and 65, BADCRC, PRE, DEST, TOT0, ORD0, ORDBIG, MAXFRAG. -/
theorem witness_DataPathChecksInOrder : zeros 63 ≠ [] ∧ (zeros 63).length ≠ 64 ∧ (zeros 65).length ≠ 64 ∧
    (∀ b ∈ [A0, A3of2, AT0, Apre, Adst0, A2of3], b.length = 64 ∧ crc32 (slice b 0 60) = getLe32 b 60) ∧
    ((flipBit A1 511).length = 64 ∧ crc32 (slice (flipBit A1 511) 0 60) ≠ getLe32 (flipBit A1 511) 60) ∧
    getLe16 Apre 0 ≠ 0x0001#16 ∧ (getLe16 Adst0 0 = 0x0001#16 ∧ byteAt Adst0 2 ≠ 0x01#8) ∧
    (∀ b ∈ [A0, A3of2, AT0, A2of3], getLe16 b 0 = 0x0001#16 ∧ byteAt b 2 = 0x01#8) ∧
    (byteAt AT0 9).toNat = 0 ∧ (byteAt A0 8).toNat = 0 ∧ (byteAt A3of2 9).toNat < (byteAt A3of2 8).toNat ∧
    ({ S0 with cfg := { S0.cfg with maxFrag := 2#8 } } : State).cfg.maxFrag.toNat < (byteAt A2of3 9).toNat := by
  decide +kernel

theorem witness_SingleFragmentIsDispatched : Frame.decode fBh.toWire = .ok fBh ∧ isValid fBh = .ok true ∧
    Acceptable S0.cfg fBh ∧ fBh.frameTotal = 1#8 := ⟨valid_Bh.1, valid_Bh.2, acceptable_Bh, rfl⟩

theorem witness_FirstFragmentTakesLowestFreeSlot : Frame.decode fA1.toWire = .ok fA1 ∧ isValid fA1 = .ok true ∧
    Acceptable S0.cfg fA1 ∧ fA1.frameTotal ≠ 1#8 ∧ S0.noBucket fA1.frameId ∧ S0.lowestFree 0 :=
  ⟨valid_A1.1, valid_A1.2, acceptable_A1, by decide, (by intro b hb; cases hb), rfl, by intro j hj; omega⟩

theorem witness_UnfilableFragmentsAreDropped :
    (Frame.decode fA1.toWire = .ok fA1 ∧ isValid fA1 = .ok true ∧ Acceptable full.cfg fA1 ∧ fA1.frameTotal ≠ 1#8 ∧
      full.noBucket fA1.frameId ∧ none ∉ full.slots) ∧
    (Frame.decode fA2of3.toWire = .ok fA2of3 ∧ isValid fA2of3 = .ok true ∧ Acceptable held.cfg fA2of3 ∧
      fA2of3.frameTotal ≠ 1#8 ∧ held.bucketAt 0 bucketA ∧ bucketA.frameId = fA2of3.frameId ∧
      bucketA.total ≠ fA2of3.frameTotal) ∧
    (Acceptable held.cfg fA1 ∧ held.bucketAt 0 bucketA ∧ bucketA.frameId = fA1.frameId ∧
      bucketA.total = fA1.frameTotal ∧ fA1.frameOrder.toNat ∈ bucketA.held) :=
  ⟨⟨valid_A1.1, valid_A1.2, acceptable_A1, by decide, by
      intro b hb
      simp only [State.buckets, full, List.filterMap_cons, id, List.filterMap_nil, List.mem_cons, List.not_mem_nil,
        or_false] at hb
      rcases hb with rfl | rfl <;> decide, by decide⟩,
    ⟨valid_A2of3.1, valid_A2of3.2, acceptable_A2of3, by decide, held_bucketAt, rfl, by decide⟩,
    ⟨acceptable_A1, held_bucketAt, rfl, rfl, by decide⟩⟩

theorem witness_FragmentIsStored : Frame.decode fA2of3.toWire = .ok fA2of3 ∧ isValid fA2of3 = .ok true ∧
    Acceptable held3.cfg fA2of3 ∧ fA2of3.frameTotal ≠ 1#8 ∧ held3.bucketAt 0 bucketA3 ∧
    bucketA3.frameId = fA2of3.frameId ∧ bucketA3.total = fA2of3.frameTotal ∧ bucketA3.Inv held3.cfg ∧
    fA2of3.frameOrder.toNat ∉ bucketA3.held ∧
    (1 ≤ 3 ∧ 3 ≤ bucketA3.total.toNat ∧ 3 ≠ fA2of3.frameOrder.toNat ∧ 3 ∉ bucketA3.held) :=
  ⟨valid_A2of3.1, valid_A2of3.2, acceptable_A2of3, by decide, held3_bucketAt, rfl, rfl, bucketA3_inv, by decide, by decide⟩

/-- The fragment that completes; that another is still missing is met by the witness of FragmentIsStored. -/
theorem witness_LastFragmentCompletesMessage : Frame.decode fA2.toWire = .ok fA2 ∧ isValid fA2 = .ok true ∧
    Acceptable held.cfg fA2 ∧ fA2.frameTotal ≠ 1#8 ∧ held.bucketAt 0 bucketA ∧ bucketA.frameId = fA2.frameId ∧
    bucketA.total = fA2.frameTotal ∧ bucketA.Inv held.cfg ∧ fA2.frameOrder.toNat ∉ bucketA.held ∧
    (∀ j, 1 ≤ j → j ≤ bucketA.total.toNat → j = fA2.frameOrder.toNat ∨ j ∈ bucketA.held) :=
  ⟨valid_A2.1, valid_A2.2, acceptable_A2, by decide, held_bucketAt, rfl, rfl, bucketA_inv, by decide, by
    intro j h1 h2
    have h3 : j ≤ 2 := h2
    interval_cases j
    · exact .inr (by decide)
    · exact .inl (by decide)⟩

/-- The tick that completes the message of bucket A. -/
theorem held_completes : ∃ t, exec (.frameData fA2) held = .next t := by
  obtain ⟨t, ht⟩ := tick_total fA2.toWire held
  refine ⟨t, ?_⟩
  show outcome (tick fA2.toWire held) = .next t
  rw [ht]
  rfl

/-- A dispatch, a clearing, and an event of neither kind. -/
theorem witness_LastMessageMovesOnlyByDispatchOrReset : (∃ t, exec (.frameData fA2) held = .next t) ∧
    exec .reset held = .next held.hardReset ∧ exec (.nop 0#8 0#16) held = .next held := ⟨held_completes, rfl, rfl⟩

/-- The shortest message, and the longest (255 fragments), in arrival orders that are permutations of the sending. -/
theorem witness_ReassemblyInAnyOrder (m : List Byte) (hm : m.length = 1 ∨ m.length = 12750) (id : Word) :
    1 ≤ m.length ∧ m.length ≤ 12750 ∧ ceilDiv m.length 50 ≤ S0.cfg.maxFrag.toNat ∧ S0.noBucket id ∧ none ∈ S0.slots ∧
    ∃ sent arrived, encodeAll (fragments 0x01#8 id m) = .ok sent ∧ arrived.Perm sent ∧ arrived = sent.reverse := by
  refine ⟨by omega, by omega, ?_, (by intro b hb; cases hb), by decide,
    _, _, encodeAll_ok fragments_fit, List.reverse_perm _, rfl⟩
  rcases hm with h | h <;> rw [h] <;> decide

theorem witness_DiscoveryJudgesFirstBlock : S0.discState ≠ .wait ∧
    (waiting.discState = .wait ∧ waiting.discPending = false ∧ fRsp.toWire ≠ [] ∧ fRsp.toWire.length = 64 ∧
      crc32 (slice fRsp.toWire 0 60) = getLe32 fRsp.toWire 60 ∧ getLe16 fRsp.toWire 0 = 0x0003#16) := by decide +kernel

/-- Waiting with the timeout of reset; the last tick that waits, the first that fails; the good reply. -/
theorem witness_DiscoveryFailsAfterTimeout : waiting.en = true ∧ waiting.discState = .wait ∧
    waiting.discPending = false ∧ waiting.discWait = 0#32 ∧ 15 < max 1 waiting.discTimeout.toNat ∧
    ¬16 < max 1 waiting.discTimeout.toNat ∧ fRsp.payload.length = 50 ∧ fRsp.preamble = 0x0003#16 ∧
    fRsp.crc = crc32 (frameBody fRsp) := by decide +kernel

theorem witness_DiscoveryDoesNotHoldDataPath : waiting.en = true ∧ Instr.wellFormed (.frameDiscReq fReq) = true ∧
    Instr.wellFormed (.frameDiscRsp fRsp) = true ∧ Instr.wellFormed (.frameReserved fPre) = true ∧
    fBh.payload.length = 50 ∧ fBh.preamble = 0x0001#16 ∧ Acceptable waiting.cfg fBh ∧ fBh.frameTotal = 1#8 ∧ fBh.crc = crc32 (frameBody fBh) :=
  ⟨rfl, by decide, by decide, by decide, rfl, rfl, acceptable_Bh, rfl, by decide +kernel⟩

theorem witness_SubmitAnswersItsStatus : 12750 < (zeros 12751).length ∧ (zeros 12750).length ≤ 12750 ∧
    ({ S0 with txq := [[], []] } : State).txq.length = S0.cfg.txqMax.toNat ∧
    ({ S0 with txq := [[]] } : State).txq.length ≠ S0.cfg.txqMax.toNat := by
  rw [zeros_length, zeros_length]
  decide

/-- The empty message and the longest one at the head of the queue. -/
theorem witness_TickSendsHeadMessage : ({ S0 with txq := [[], hello] } : State).en = true ∧ S0.discPending = false ∧
    ({ S0 with txq := [[], hello] } : State).txq = [] :: [hello] ∧ ([] : List Byte).length ≤ 12750 ∧
    ({ S0 with txq := [zeros 12750] } : State).txq = zeros 12750 :: [] ∧ (zeros 12750).length ≤ 12750 := by
  refine ⟨rfl, rfl, rfl, by decide, rfl, ?_⟩
  rw [zeros_length]

/-- A block arrives while there is nothing to send. -/
theorem witness_TickSendsHeadMessage_idle : held.en = true ∧ held.discPending = false ∧ held.txq = [] ∧ fA2.toWire ≠ [] := by decide

theorem witness_PendingRequestGoesFirst : ({ waiting with discPending := true } : State).en = true ∧
    ({ waiting with discPending := true } : State).discPending = true ∧ waiting.txq = [] := by decide

theorem witness_RegReadAnswersItsRegister : (0x7FFF#15).toNat % 4 ≠ 0 ∧ (0x0004#15).toNat = 0x0004 ∧
    (0x0020#15).toNat = 0x0020 ∧ ((0x3FFC#15).toNat % 4 = 0 ∧ 0x0024 ≤ (0x3FFC#15).toNat ∧ (0x3FFC#15).toNat < 0x4000) ∧
    ((0x4000#15).toNat % 4 = 0 ∧ 0x4000 ≤ (0x4000#15).toNat ∧ 3 < 4) ∧
    ((0x7FFC#15).toNat % 4 = 0 ∧ 0x4000 ≤ (0x7FFC#15).toNat) := by decide

theorem witness_StatusAndConfigFields : held.bucketsUsed = 1 ∧ held.bucketsUsed ≤ 255 ∧
    ({ held with txq := [hello] } : State).txq.length ≤ 65535 ∧
    ({ S0 with slots := List.replicate 255 (some bucketA) } : State).bucketsUsed = 255 := by decide +kernel

theorem witness_LastMessageReadsBackWhole : ({ S0 with lastMsg := zeros 16384 } : State).lastMsg.length ≤ 16384 ∧
    S0.lastMsg.length ≤ 16384 := by
  refine ⟨?_, by decide⟩
  show (zeros 16384).length ≤ 16384
  rw [zeros_length]

/-- Two states with different buckets and different queued messages. -/
theorem witness_InternalStorageIsInvisible : ∃ s t : State,
    t = { s with slots := t.slots, txq := t.txq, discWait := t.discWait } ∧ t.bucketsUsed = s.bucketsUsed ∧
    t.txq.length = s.txq.length ∧ t ≠ s :=
  ⟨{ held with txq := [hello] }, { held3 with txq := [[]], discWait := 5#32 }, rfl, by decide, by decide, by decide⟩

theorem witness_RegWriteActsByItsOffset : (0x0000#15).toNat = 0x0000 ∧ (0x0004#15).toNat = 0x0004 ∧
    (0x0008#15).toNat = 0x0008 ∧ (0x0010#15).toNat = 0x0010 ∧ (0x0014#15).toNat = 0x0014 ∧
    [0x0001#15, 0x000C#15, 0x0015#15, 0x0018#15, 0x0020#15, 0x0024#15, 0x7FFF#15].all (fun off =>
      off.toNat != 0x0000 && off.toNat != 0x0004 && off.toNat != 0x0008 && off.toNat != 0x0010 && off.toNat != 0x0014)
      = true := by decide

/-- Set by opcode 0x07, cleared by STATUS bit 1. -/
theorem witness_CmdErrMovesOnlyByItsRules : Instr.wellFormed (.cmdReserved 0x07#8 0#8 0#16) = true ∧
    exec (.cmdReserved 0x07#8 0#8 0#16) S0 = .next { S0 with cmdErr := true } ∧
    exec (.wrStatus 2#32) { S0 with cmdErr := true } = .next S0 ∧
    (IsCommand (.cmdReserved 0x07#8 0#8 0#16) fun opc => 0x07 ≤ opc.toNat) ∧
    (IsCommand (.softReset 0#8 0#16) fun opc => opc = 0x05#8) :=
  ⟨by decide, rfl, rfl, ⟨_, rfl, by decide⟩, ⟨_, rfl, by decide⟩⟩

theorem witness_RunFlagMovesOnlyByStartStopReset : exec (.start 0#8 0#16) State.reset = .next S0 ∧
    exec (.stop 0#8 0#16) S0 = .next State.reset ∧ exec .reset S0 = .next State.reset := ⟨rfl, rfl, rfl⟩

theorem witness_SettingsMoveOnlyByTheirWrites : Instr.wellFormed (.wrAddr 2#32) = true ∧
    exec (.wrAddr 2#32) S0 = .next { S0 with dstAddr := 2#8 } := ⟨rfl, rfl⟩

theorem witness_OneEventAddsBoundedOutput : held.Inv ∧ ∃ t, exec (.frameData fA2) held = .next t :=
  ⟨held_inv, held_completes⟩

/-- The least and the greatest parameters. -/
theorem witness_InvariantHoldsAfterReset : Config.Params.legal ⟨1#8, 1#16, 2#8⟩ = true ∧
    Config.Params.legal ⟨255#8, 65535#16, 255#8⟩ = true := by decide

/-- A state with a bucket in progress, whose step delivers the message. -/
theorem witness_StepKeepsInvariant : ∃ s t : State, s.Inv ∧ step s = .next t ∧ s.buckets ≠ [] := by
  obtain ⟨h1, h2, h3, h4, h5, h6, h7, h8, h9, h10, h11⟩ := held_inv
  exact ⟨{ held with input := [⟨.cmd, [0x04#8, 0#8, 0#8, 0#8]⟩] }, { held with en := false },
    ⟨h1, h2, h3, h4, h5, h6, h7, h8, h9, h10, h11⟩, rfl, by decide⟩

theorem witness_ReachableStatesAreSafe : Reachable State.reset ∧ Reachable (State.resetOf ⟨255#8, 65535#16, 255#8⟩) :=
  ⟨.reset _ rfl, .reset _ rfl⟩

theorem witness_InstancesShareNothing : stepInstance 1 [State.reset, S0, held] = .next [State.reset, S0, held] ∧
    stepInstance 3 [State.reset] = .next [State.reset] := ⟨rfl, rfl⟩

/-- fA1 at another destination, with its CRC. -/
def addressed (dest : Byte) : Frame := { fA1 with dest := dest, crc := crc32 (frameBody { fA1 with dest := dest }) }

theorem valid_addressed (dest : Byte) :
    Frame.decode (addressed dest).toWire = .ok (addressed dest) ∧ isValid (addressed dest) = .ok true :=
  valid_of_crc rfl rfl

/-- Broadcast, both ends of the devices, both ends of the unassigned values; and fA1 as two sources encode it. -/
theorem witness_ReceptionIsByDestinationAddress :
    (∀ dest, Frame.decode (addressed dest).toWire = .ok (addressed dest) ∧ isValid (addressed dest) = .ok true ∧
      (addressed dest).preamble = 0x0001#16 ∧ (addressed dest).dest = dest) ∧
    addressKind 0x00#8 ≠ .host ∧ addressKind 0x02#8 ≠ .host ∧ addressKind 0x7F#8 ≠ .host ∧ addressKind 0x80#8 ≠ .host ∧
    addressKind 0xFF#8 ≠ .host ∧ encodeFrame fA1 = .ok (wireOf fA1) ∧
    encodeFrame { fA1 with src := 0x7F#8 } = .ok (wireOf { fA1 with src := 0x7F#8 }) :=
  ⟨fun dest => ⟨(valid_addressed dest).1, (valid_addressed dest).2, rfl, rfl⟩, by decide, by decide, by decide,
    by decide, by decide, rfl, rfl⟩

end Sys2Proof.Tests
end

section
/-! PROOFS. The scope of the model (spec/00_scope.md): what a dropped frame leaves behind (R17). -/

namespace Sys2Proof.Machine

/-- R162 to R164: the arbiter that files a fragment answers STORED or COMPLETED, and R150 counts neither as a drop. -/
theorem Filed.isDrop_eq_false {f : Frame} {s t : State} {v : Verdict} (h : Filed f s v t) : v.isDrop = false := by
  obtain ⟨_, _, -, -, ⟨rfl, -, -⟩ | ⟨rfl, -, -⟩⟩ := h
  · rfl
  · rfl

/-- The data path writes the state only where it dispatches or files a fragment, and those verdicts are no drops. -/
theorem deframe_eq_self_of_isDrop {rx : List Byte} {s t : State} {v : Verdict} (h : deframe rx s = .ok (v, t))
    (hdrop : v.isDrop = true) : t = s := by
  obtain ⟨-, hts⟩ | ⟨f, -, -, -, ⟨rfl, -, -⟩ | ⟨-, hfiled⟩⟩ := deframe_cases h
  · exact hts
  · cases hdrop
  · rw [hfiled.isDrop_eq_false] at hdrop
    cases hdrop

/-- Settles O25: the data path answers for every block (`deframe_total`), and a drop keeps the state it found. -/
theorem droppedFramesChangeNothing : Obligations.DroppedFramesChangeNothing := by
  intro rx s
  obtain ⟨v, t, h⟩ := deframe_total rx s
  exact ⟨v, t, h, deframe_eq_self_of_isDrop h⟩

end Sys2Proof.Machine
end

section
/-! PROOFS. The machine state (spec/10_state.md): which events move `cmd_err` (R24). -/

namespace Sys2Proof.Machine

/-! ### The event a row is -/

/-- R54. -/
theorem writeReg_misaligned {off : Offset} (v : Word) (s : State) (h : off.extractLsb' 0 2 ≠ 0#2) :
    writeReg off v s = s := by
  unfold writeReg
  rw [if_pos h]

/-- R53. -/
theorem writeReg_reserved {off : Offset} (v : Word) (s : State) (h : off.reserved = true) : writeReg off v s = s :=
  writeReg_ignored v s (reserved_ne h (by decide)) (reserved_ne h (by decide)) (reserved_ne h (by decide))
    (reserved_ne h (by decide)) (reserved_ne h (by decide))

/-- R55, for the LAST_DATA window. -/
theorem writeReg_window {off : Offset} (v : Word) (s : State) (h : 0x4000 ≤ off.toNat) : writeReg off v s = s :=
  writeReg_ignored v s (window_ne h (by decide)) (window_ne h (by decide)) (window_ne h (by decide))
    (window_ne h (by decide)) (window_ne h (by decide))

/-- Everything a register write can do (R201). -/
theorem writeReg_cases (off : Offset) (v : Word) (s : State) :
    (off = 0x0000#15 ∧ writeReg off v s = command v s) ∨
    (off = 0x0004#15 ∧ writeReg off v s = writeStatus v s) ∨
    (off = 0x0008#15 ∧ writeReg off v s = s.setDstAddr (v.extractLsb' 0 8)) ∨
    (off = 0x0010#15 ∧ writeReg off v s = s.setBucketTtl v) ∨
    (off = 0x0014#15 ∧ writeReg off v s = s.setDiscTimeout v) ∨
    (off ≠ 0x0000#15 ∧ off ≠ 0x0004#15 ∧ off ≠ 0x0008#15 ∧ off ≠ 0x0010#15 ∧ off ≠ 0x0014#15 ∧
      writeReg off v s = s) := by
  rcases eq_or_ne off 0x0000#15 with rfl | h0
  · exact .inl ⟨rfl, rfl⟩
  rcases eq_or_ne off 0x0004#15 with rfl | h1
  · exact .inr (.inl ⟨rfl, rfl⟩)
  rcases eq_or_ne off 0x0008#15 with rfl | h2
  · exact .inr (.inr (.inl ⟨rfl, rfl⟩))
  rcases eq_or_ne off 0x0010#15 with rfl | h3
  · exact .inr (.inr (.inr (.inl ⟨rfl, rfl⟩)))
  rcases eq_or_ne off 0x0014#15 with rfl | h4
  · exact .inr (.inr (.inr (.inr (.inl ⟨rfl, rfl⟩))))
  · exact .inr (.inr (.inr (.inr (.inr ⟨h0, h1, h2, h3, h4, writeReg_ignored v s h0 h1 h2 h3 h4⟩))))

/-- R217: every opcode from 0x07 up is reserved. -/
theorem command_reserved {v : Word} (s : State) (h : 7 ≤ (cmdOpc v).toNat) : command v s = s.setCmdErr true := by
  have hne : ∀ k : Byte, k.toNat < 7 → cmdOpc v ≠ k := by
    rintro k hk rfl
    omega
  unfold command
  rw [if_neg (hne _ (by decide)), if_neg (hne _ (by decide)), if_neg (hne _ (by decide)), if_neg (hne _ (by decide)),
    if_neg (hne _ (by decide)), if_neg (hne _ (by decide)), if_neg (hne _ (by decide))]

theorem exec_regRead {off : Offset} {s : State} {x : Word} (h : readReg off s = x) :
    exec (.regRead off) s = .next (s.answer (.value x)) := by
  rw [← h]
  rfl

theorem exec_regWrite {off : Offset} {v : Word} {s t : State} (h : writeReg off v s = t) :
    exec (.regWrite off v) s = .next t := by
  rw [← h]
  rfl

/-- A COMMAND row runs as the write of its word to CMD (R211). -/
theorem exec_write_cmdWord (opc arg : Byte) (hi : Half) (s : State) :
    exec (.regWrite 0x0000#15 (cmdWord opc arg hi)) s = .next (command (cmdWord opc arg hi) s) := exec_regWrite rfl

/-- Each row of the table runs as the event it stands for (R79, R80, R211, entry 5). -/
theorem exec_eq_exec_toEvent {i : Instr} (s : State) (h : i.wellFormed = true) :
    exec i s = exec i.toEvent.toInstr s := by
  cases i with
  | reset | tick | submit | regRead | regWrite => rfl
  | nop arg hi | crcInit arg hi | crcByte arg hi | start arg hi | stop arg hi | softReset arg hi | discStart arg hi =>
    simp only [Instr.toEvent, Event.toInstr, exec_write_cmdWord, command, cmdOpc_cmdWord, cmdArg_cmdWord]
    rfl
  | cmdReserved opc arg hi =>
    have hopc : 7 ≤ opc.toNat := by simpa [Instr.wellFormed] using h
    rw [Instr.toEvent, Event.toInstr, exec_write_cmdWord, command_reserved s (by rwa [cmdOpc_cmdWord])]
    rfl
  | rdCmd | rdStatus | rdAddr | rdCrcResult | rdBucketTtl | rdDiscTimeout | rdLastSeq | rdLastLen | rdConfig => rfl
  | rdLastData off =>
    obtain ⟨ha, hw⟩ : off.aligned = true ∧ off.inWindow = true := by simpa [Instr.wellFormed] using h
    have hread := readReg_window s (by simpa [Offset.aligned] using ha) ((inWindow_iff off).mp hw)
    exact (exec_regRead hread).symm
  | rdMisaligned off =>
    have hread := readReg_misaligned s (off := off) (by simpa [Instr.wellFormed, Offset.aligned] using h)
    exact (exec_regRead hread).symm
  | rdReserved off => exact (exec_regRead (readReg_reserved s h)).symm
  | wrCmd | wrStatus | wrAddr | wrBucketTtl | wrDiscTimeout => rfl
  | wrCrcResult | wrLastSeq | wrLastLen | wrConfig => rfl
  | wrLastData off v =>
    obtain ⟨-, hw⟩ : off.aligned = true ∧ off.inWindow = true := by simpa [Instr.wellFormed] using h
    exact (exec_regWrite (writeReg_window v s ((inWindow_iff off).mp hw))).symm
  | wrMisaligned off v =>
    have hwrite := writeReg_misaligned v s (off := off) (by simpa [Instr.wellFormed, Offset.aligned] using h)
    exact (exec_regWrite hwrite).symm
  | wrReserved off v => exact (exec_regWrite (writeReg_reserved v s h)).symm
  | frameData | frameDiscReq | frameDiscRsp | frameReserved => rfl

/-! ### The command error flag -/

/-- The events that set `cmd_err` (R24): a reserved opcode written to CMD. -/
def SetsCmdErr (e : Event) : Prop := ∃ v, e = .regWrite 0x0000#15 v ∧ 0x07 ≤ (cmdOpc v).toNat

/-- The events that clear `cmd_err` (R24): RESET, a 1 written to STATUS.CMD_ERR, SOFT_RESET. -/
def ClearsCmdErr (e : Event) : Prop :=
  e = .reset ∨ (∃ v, e = .regWrite 0x0004#15 v ∧ v.getLsbD 1 = true) ∨ ∃ v, e = .regWrite 0x0000#15 v ∧ cmdOpc v = 0x05#8

theorem setsCmdErr_regWrite (off : Offset) (v : Word) :
    SetsCmdErr (.regWrite off v) ↔ off = 0x0000#15 ∧ 0x07 ≤ (cmdOpc v).toNat := by
  simp [SetsCmdErr, and_assoc]

theorem clearsCmdErr_regWrite (off : Offset) (v : Word) :
    ClearsCmdErr (.regWrite off v) ↔
      (off = 0x0004#15 ∧ v.getLsbD 1 = true) ∨ (off = 0x0000#15 ∧ cmdOpc v = 0x05#8) := by
  simp [ClearsCmdErr, and_assoc]

theorem ClearsCmdErr.not_setsCmdErr {e : Event} (h : ClearsCmdErr e) : ¬SetsCmdErr e := by
  rintro ⟨v, rfl, hv⟩
  rcases (clearsCmdErr_regWrite _ v).mp h with ⟨h0, -⟩ | ⟨-, h5⟩
  · exact absurd h0 (by decide)
  · rw [h5] at hv
    exact absurd hv (by decide)

/-- What a command leaves in `cmd_err` (R211, R215, R217). -/
theorem command_cmdErr_iff (v : Word) (s : State) :
    (command v s).cmdErr = true ↔ 0x07 ≤ (cmdOpc v).toNat ∨ (s.cmdErr = true ∧ cmdOpc v ≠ 0x05#8) := by
  rcases command_cases v s with ⟨h, e⟩ | ⟨h, e⟩ | ⟨h, e⟩ | ⟨h, e⟩ | ⟨h, e⟩ | ⟨h, e⟩ | ⟨h, e⟩ | ⟨h, e⟩
  · simp [e, h]
  · simp [e, h]
  · simp [e, h]
  · simp [e, h]
  · simp [e, h]
  · simp [e, h]
  · simp [e, h]
  · have hres : 0x07 ≤ (cmdOpc v).toNat := not_lt.mp fun hlt => h _ hlt rfl
    simp [e, hres]

/-- What a register write leaves in `cmd_err` (R201, R203). -/
theorem writeReg_cmdErr_iff (off : Offset) (v : Word) (s : State) :
    (writeReg off v s).cmdErr = true ↔
      SetsCmdErr (.regWrite off v) ∨ (s.cmdErr = true ∧ ¬ClearsCmdErr (.regWrite off v)) := by
  rw [setsCmdErr_regWrite, clearsCmdErr_regWrite]
  rcases writeReg_cases off v s with ⟨rfl, e⟩ | ⟨rfl, e⟩ | ⟨rfl, e⟩ | ⟨rfl, e⟩ | ⟨rfl, e⟩ | ⟨h0, h1, -, -, -, e⟩
  · simp [e, command_cmdErr_iff]
  · simp [e, writeStatus_eq]
  · simp [e]
  · simp [e]
  · simp [e]
  · simp [e, h0, h1]

theorem submit_cmdErr (m : List Byte) (s : State) : (submit m s).cmdErr = s.cmdErr := by
  rcases submit_cases m s with ⟨-, e⟩ | ⟨-, e⟩ <;> simp [e]

/-- Where `cmd_err` stands after an event: it was set, or it stood and was not cleared. -/
theorem exec_cmdErr_iff {e : Event} {s t : State} (h : exec e.toInstr s = .next t) :
    t.cmdErr = true ↔ SetsCmdErr e ∨ (s.cmdErr = true ∧ ¬ClearsCmdErr e) := by
  cases e with
  | reset =>
    cases h
    simp [SetsCmdErr, ClearsCmdErr]
  | tick rx =>
    have hsame : t.cmdErr = s.cmdErr := (tick_settings (outcome_eq_next.mp h)).cmdErr
    simp [hsame, SetsCmdErr, ClearsCmdErr]
  | submit m =>
    cases h
    simp [submit_cmdErr, SetsCmdErr, ClearsCmdErr]
  | regRead off =>
    cases h
    simp [SetsCmdErr, ClearsCmdErr]
  | regWrite off v =>
    cases h
    exact writeReg_cmdErr_iff off v s

/-- Settles O49: a row runs as its event (`exec_eq_exec_toEvent`), and no event both sets and clears the flag. -/
theorem cmdErrMovesOnlyByItsRules : Obligations.CmdErrMovesOnlyByItsRules := by
  intro i s t hwf hexec
  rw [exec_eq_exec_toEvent s hwf] at hexec
  have hiff := exec_cmdErr_iff hexec
  refine ⟨fun hset => hiff.mpr (.inl hset), fun hs ht => ?_, fun hclear => ?_, fun hs ht => ?_⟩
  · rcases hiff.mp ht with hset | ⟨hs', -⟩
    · exact hset
    · exact absurd hs' (by simp [hs])
  · rw [Bool.eq_false_iff, Ne, hiff]
    rintro (hset | ⟨-, hkeep⟩)
    · exact ClearsCmdErr.not_setsCmdErr hclear hset
    · exact hkeep hclear
  · by_contra hkeep
    exact absurd (hiff.mpr (.inr ⟨hs, hkeep⟩)) (by simp [ht])

end Sys2Proof.Machine
end

section
/-! PROOFS. The register space (spec/20_memory.md): no offset reaches the internal storage (R62). -/

namespace Sys2Proof.Machine

/-! ### Reads -/

/-- STATUS shows the two counts and nothing else of the slots and the queue (R202). -/
theorem statusWord_eq_of_counts {s t : State} (h : t = { s with slots := t.slots, txq := t.txq, discWait := t.discWait })
    (hused : t.bucketsUsed = s.bucketsUsed) (hqueued : t.txq.length = s.txq.length) : statusWord t = statusWord s := by
  unfold statusWord
  rw [hused, hqueued, h]

/-- STATUS is the only register that depends on the slots or the queue (R200). -/
theorem readReg_eq_of_counts {s t : State} (off : Offset)
    (h : t = { s with slots := t.slots, txq := t.txq, discWait := t.discWait })
    (hused : t.bucketsUsed = s.bucketsUsed) (hqueued : t.txq.length = s.txq.length) : readReg off t = readReg off s := by
  unfold readReg
  rw [statusWord_eq_of_counts h hused hqueued, h]

/-! ### Writes -/

/-- SOFT_RESET frees every slot (R215). -/
@[simp] theorem softReset_buckets (s : State) : s.softReset.buckets = [] := by
  simp [State.buckets]

/-- SOFT_RESET is the only command that moves the slots or the queue (R211). -/
theorem command_storage (v : Word) (s : State) :
    ((command v s).slots = s.slots ∧ (command v s).txq = s.txq) ∨
    (cmdOpc v = 0x05#8 ∧ (command v s).buckets = [] ∧ (command v s).txq = []) := by
  rcases command_cases v s with ⟨-, e⟩ | ⟨-, e⟩ | ⟨-, e⟩ | ⟨-, e⟩ | ⟨-, e⟩ | ⟨hopc, e⟩ | ⟨-, e⟩ | ⟨-, e⟩
  · simp [e]
  · simp [e]
  · simp [e]
  · simp [e]
  · simp [e]
  · simp [e, hopc]
  · simp [e]
  · simp [e]

/-- CMD is the only offset whose write can move the slots or the queue (R201). -/
theorem writeReg_storage (off : Offset) (v : Word) (s : State) :
    ((writeReg off v s).slots = s.slots ∧ (writeReg off v s).txq = s.txq) ∨
    (off = 0x0000#15 ∧ cmdOpc v = 0x05#8 ∧ (writeReg off v s).buckets = [] ∧ (writeReg off v s).txq = []) := by
  rcases writeReg_cases off v s with ⟨rfl, e⟩ | ⟨-, e⟩ | ⟨-, e⟩ | ⟨-, e⟩ | ⟨-, e⟩ | ⟨-, -, -, -, -, e⟩
  · rw [e]
    exact (command_storage v s).imp_right fun h => ⟨rfl, h⟩
  · simp [e, writeStatus_eq]
  · simp [e]
  · simp [e]
  · simp [e]
  · simp [e]

/-- Settles O44: a read depends on the storage by its counts alone, and a write moves it by SOFT_RESET alone. -/
theorem internalStorageIsInvisible : Obligations.InternalStorageIsInvisible := by
  refine ⟨fun s t off h hused hqueued => ?_, fun s off v => ?_⟩
  · exact ⟨readReg off s, exec_regRead rfl, exec_regRead (readReg_eq_of_counts off h hused hqueued)⟩
  · exact ⟨writeReg off v s, exec_regWrite rfl, writeReg_storage off v s⟩

end Sys2Proof.Machine
end

section
/-! PROOFS. The encodings (spec/30_encoding.md): command words (R77), register accesses (R79), pseudo-instructions (R85). -/

namespace Sys2Proof.Machine

/-! ### Command words -/

/-- A word of the command format decodes to the command it names: it is the word of its own three fields (R76). -/
theorem decode_cmd_le32 (v : Word) : decode ⟨.cmd, le32 v⟩ = .ok (decodeCmd v) := by
  have h := decode_encodeCmd (cmdOpc v) (cmdArg v) (cmdHi v)
  rwa [encodeCmd, cmdWord_eta] at h

/-- Settles O4: the decoder's seven tests of the opcode are tests of the word modulo 256 (`cmdOpc_eq_iff`). -/
theorem commandRowIsDecidedByLowByte : Obligations.CommandRowIsDecidedByLowByte := by
  intro v
  have hopc : ∀ k < 256, (cmdOpc v = BitVec.ofNat 8 k) = (v.toNat % 256 = k) := fun k hk => propext (cmdOpc_eq_iff hk)
  rw [decode_cmd_le32, decodeCmd]
  simp only [hopc, Nat.reduceLT]
  rfl

/-! ### Register accesses -/

theorem regKey_false (off : Offset) : regKey false off = off.setWidth 16 := by
  simp [regKey]

theorem regKey_true (off : Offset) : regKey true off = 0x8000#16 ||| off.setWidth 16 := rfl

/-- The reserved offsets as numbers (R53). -/
theorem reserved_iff (off : Offset) :
    off.reserved = true ↔ off.toNat % 4 = 0 ∧ 0x0024 ≤ off.toNat ∧ off.toNat < 0x4000 := by
  have hwin : off.inWindow = false ↔ off.toNat < 0x4000 := by
    rw [← not_le, ← inWindow_iff, Offset.inWindow, Bool.not_eq_true]
  simp only [Offset.reserved, Offset.aligned, Bool.and_eq_true, beq_iff_eq, Bool.not_eq_true', decide_eq_true_eq,
    aligned_iff, hwin]
  omega

/-- A register access decodes to the row of its offset, in both directions (R79). -/
theorem decode_access {off : Offset} {v : Word} {r w : Instr} (hr : decodeRead off = r) (hw : decodeWrite off v = w) :
    decode ⟨.reg, le16 (off.setWidth 16)⟩ = .ok r ∧
    decode ⟨.reg, le16 (0x8000#16 ||| off.setWidth 16) ++ le32 v⟩ = .ok w := by
  rw [← regKey_true, ← regKey_false, ← hr, ← hw]
  exact ⟨decode_encodeRead off, decode_encodeWrite off v⟩

/-- The access of an offset given by its number, as a register's is (R51). -/
theorem decode_access_of_toNat {off : Offset} (k : Offset) {v : Word} {r w : Instr} (h : off.toNat = k.toNat)
    (hr : decodeRead k = r) (hw : decodeWrite k v = w) :
    decode ⟨.reg, le16 (off.setWidth 16)⟩ = .ok r ∧
    decode ⟨.reg, le16 (0x8000#16 ||| off.setWidth 16) ++ le32 v⟩ = .ok w := by
  obtain rfl := BitVec.eq_of_toNat_eq h
  exact decode_access hr hw

/-- Settles O5: the key is read back (`decode_access`), and each class of offsets has its row in both directions. -/
theorem registerRowIsDecidedByOffset : Obligations.RegisterRowIsDecidedByOffset := by
  rintro off v rd wr rfl rfl
  refine ⟨fun hmis => ?misaligned, fun hal hwin => ?window, fun hal hlo hhi => ?reserved, ?cmd, ?status, ?addr, ?crcResult,
    ?bucketTtl, ?discTimeout, ?lastSeq, ?lastLen, ?config⟩
  case misaligned =>
    have h := mt (aligned_iff off).mp hmis
    exact decode_access (decodeRead_misaligned h) (decodeWrite_misaligned h v)
  case window =>
    have ha := (aligned_iff off).mpr hal
    have hw := (inWindow_iff off).mpr hwin
    exact decode_access (decodeRead_window ha hw) (decodeWrite_window ha hw v)
  case reserved =>
    have h := (reserved_iff off).mpr ⟨hal, hlo, hhi⟩
    exact decode_access (decodeRead_reserved h) (decodeWrite_reserved h v)
  case cmd => exact fun h => decode_access_of_toNat 0x0000#15 h rfl rfl
  case status => exact fun h => decode_access_of_toNat 0x0004#15 h rfl rfl
  case addr => exact fun h => decode_access_of_toNat 0x0008#15 h rfl rfl
  case crcResult => exact fun h => decode_access_of_toNat 0x000C#15 h rfl rfl
  case bucketTtl => exact fun h => decode_access_of_toNat 0x0010#15 h rfl rfl
  case discTimeout => exact fun h => decode_access_of_toNat 0x0014#15 h rfl rfl
  case lastSeq => exact fun h => decode_access_of_toNat 0x0018#15 h rfl rfl
  case lastLen => exact fun h => decode_access_of_toNat 0x001C#15 h rfl rfl
  case config => exact fun h => decode_access_of_toNat 0x0020#15 h rfl rfl

/-! ### Pseudo-instructions -/

/-- A command word whose ignored bits are 0, as a trace's command lines write it (R84). -/
theorem cmdWord_hi_zero (opc arg : Byte) : cmdWord opc arg 0#16 = (arg.setWidth 32 <<< 8) ||| opc.setWidth 32 := by
  simp [cmdWord, BitVec.or_comm]

theorem toEvent_crcByte (c : Byte) :
    (Instr.crcByte c 0#16).toEvent = .regWrite RegName.cmd.offset ((c.setWidth 32 <<< 8) ||| 0x02#32) := by
  rw [Instr.toEvent, cmdWord_hi_zero]
  rfl

/-- Settles O57: six lines are the very word of their command; `crc_bytes` writes one CRC_BYTE word for each byte. -/
theorem pseudoInstructionsExpand : Obligations.PseudoInstructionsExpand := by
  refine ⟨rfl, rfl, rfl, rfl, rfl, fun bs => ?_, rfl⟩
  simp only [TraceLine.events, toEvent_crcByte]

end Sys2Proof.Machine
end

section
/-! PROOFS. The CRC unit (spec/40_crc.md): its commands (R104, R105) and its independence of the TICK (R107). -/

namespace Sys2Proof.Machine

/-! ### The commands -/

theorem exec_crcInit (arg : Byte) (hi : Half) (s : State) :
    exec (.crcInit arg hi) s = .next (s.setCrcReg crcInitial) := rfl

theorem exec_crcByte (arg : Byte) (hi : Half) (s : State) :
    exec (.crcByte arg hi) s = .next (s.setCrcReg (crcStep s.crcReg arg)) := rfl

/-- Settles O11: either command is one `setCrcReg`, and its arm tests no field first. -/
theorem crcCommandsDriveAccumulator : Obligations.CrcCommandsDriveAccumulator :=
  fun s arg hi => ⟨exec_crcInit arg hi s, exec_crcByte arg hi s⟩

/-! ### The phases of a TICK commute with setting the accumulator -/

section

variable (c : Word) (s : State) (rx : List Byte)

theorem discTimeoutTick_setCrcReg : discTimeoutTick (s.setCrcReg c) = (discTimeoutTick s).setCrcReg c := by
  unfold discTimeoutTick
  rw [apply_ite (State.setCrcReg · c)]
  rfl

/-- The discovery check reads the block and the `disc_*` fields only (R167). -/
theorem discObserve_setCrcReg :
    discObserve rx (s.setCrcReg c) = (discObserve rx s).map (State.setCrcReg · c) := by
  have hout : (s.setCrcReg c).discOutstanding = s.discOutstanding := rfl
  unfold discObserve
  rw [hout, discTimeoutTick_setCrcReg]
  split
  · split
    · rfl
    · rcases goodReply rx with e | _ | _
      · rfl
      · rfl
      · rfl
  · rfl

theorem storeFragment_setCrcReg (k : Nat) (b : Bucket) (f : Frame) :
    storeFragment k b f (s.setCrcReg c) = (storeFragment k b f s).map id (State.setCrcReg · c) := by
  unfold storeFragment
  split
  · rfl
  · split
    · rfl
    · rfl

/-- The arbiter searches the slots only (R158, R159). -/
theorem multiFragment_setCrcReg (f : Frame) :
    multiFragment f (s.setCrcReg c) = (multiFragment f s).map id (State.setCrcReg · c) := by
  unfold multiFragment
  rw [State.setCrcReg_slots]
  split
  · split
    · rfl
    · exact storeFragment_setCrcReg c s _ _ f
  · split
    · rfl
    · exact storeFragment_setCrcReg c s _ _ f

/-- The filters read the frame and the parameters only (R154 to R156). -/
theorem filterFrame_setCrcReg (f : Frame) :
    filterFrame f (s.setCrcReg c) = (filterFrame f s).map id (State.setCrcReg · c) := by
  have hrange : outOfRange f (s.setCrcReg c) = outOfRange f s := rfl
  unfold filterFrame
  rw [hrange]
  split_ifs
  · rfl
  · rfl
  · rfl
  · rfl
  · exact multiFragment_setCrcReg c s f

/-- The frame check computes `crc32` of the frame's own bytes, never the accumulator (R102, R125). -/
theorem deframe_setCrcReg :
    deframe rx (s.setCrcReg c) = (deframe rx s).map (Prod.map id (State.setCrcReg · c)) := by
  unfold deframe
  split
  · rfl
  · rcases Frame.decode rx with _ | f
    · rfl
    · simp only [filterFrame_setCrcReg]
      rcases isValid f with _ | _ | _
      · rfl
      · rfl
      · rfl

theorem incoming_setCrcReg : incoming rx (s.setCrcReg c) = (incoming rx s).map (State.setCrcReg · c) := by
  unfold incoming
  rw [discObserve_setCrcReg]
  rcases discObserve rx s with _ | u
  · rfl
  · simp only [Except.map, deframe_setCrcReg]
    rcases deframe rx u with _ | ⟨v, t⟩
    · rfl
    · rfl

theorem sendRequest_setCrcReg : sendRequest (s.setCrcReg c) = (sendRequest s).map (State.setCrcReg · c) := by
  rw [sendRequest_eq, sendRequest_eq, State.setCrcReg_discPending]
  split
  · rfl
  · rfl

theorem sendHead_setCrcReg : sendHead (s.setCrcReg c) = (sendHead s).map (State.setCrcReg · c) := by
  cases hq : s.txq with
  | nil =>
    rw [sendHead_nil hq]
    exact sendHead_nil hq
  | cons m rest =>
    rw [sendHead_cons hq]
    exact sendHead_cons hq

theorem outgoing_setCrcReg : outgoing (s.setCrcReg c) = (outgoing s).map (State.setCrcReg · c) := by
  unfold outgoing
  rw [sendRequest_setCrcReg]
  rcases sendRequest s with _ | u
  · rfl
  · exact sendHead_setCrcReg c u

theorem runTick_setCrcReg : runTick rx (s.setCrcReg c) = (runTick rx s).map (State.setCrcReg · c) := by
  have hage : ageBuckets ((s.setCrcReg c).takeRx rx) = (ageBuckets (s.takeRx rx)).setCrcReg c := rfl
  unfold runTick
  rw [hage, incoming_setCrcReg]
  rcases incoming rx (ageBuckets (s.takeRx rx)) with _ | u
  · rfl
  · exact outgoing_setCrcReg c u

theorem tick_setCrcReg : tick rx (s.setCrcReg c) = (tick rx s).map (State.setCrcReg · c) := by
  unfold tick
  rw [State.setCrcReg_en]
  split
  · exact runTick_setCrcReg c s rx
  · rfl

end

/-- The TICK event is the TICK (R80, R140). -/
theorem exec_tick_of_ok {rx : List Byte} {s t : State} (h : tick rx s = .ok t) : exec (.tick rx) s = .next t :=
  outcome_eq_next.mpr h

/-- Settles O15: a TICK never faults, no phase writes the accumulator (`tick_settings`), and setting it before a TICK
is setting it after (`tick_setCrcReg`). -/
theorem crcUnitIsIndependentOfTicks : Obligations.CrcUnitIsIndependentOfTicks := by
  intro s rx c
  obtain ⟨t, h⟩ := tick_total rx s
  have hset : tick rx (s.setCrcReg c) = .ok (t.setCrcReg c) := by
    rw [tick_setCrcReg, h]
    rfl
  exact ⟨t, exec_tick_of_ok h, (tick_settings h).crcReg, exec_tick_of_ok hset⟩

end Sys2Proof.Machine
end

section
/-! PROOFS. The frame codec (spec/41_codec.md): the layout of an encoding (R121), its one fault (R122), and the fields
and bytes that a decoded block keeps (R123). -/

namespace Sys2Proof.Machine

/-! ### Encoding -/

/-- R122: the one fault of `encode`. -/
theorem encodeFrame_oversize {f : Frame} (h : 50 < f.payload.length) : encodeFrame f = .error .encOversize :=
  if_pos h

/-- Settles O16: the body of the statement is the model's `frameBody`, and what follows it in `wireOf` is its CRC. -/
theorem encodeFrameLayout : Obligations.EncodeFrameLayout :=
  fun f => ⟨encodeFrame_oversize, fun hfits =>
    ⟨frameBody f, rfl, frameBody_length hfits, encodeFrame_ok hfits, wireOf_length hfits⟩⟩

/-! ### Decoding -/

/-- R71, R123: each field of a decoded block is read at its own offset. -/
theorem fields_of_decode {b : List Byte} {f : Frame} (h : Frame.decode b = .ok f) :
    f.preamble = getLe16 b 0 ∧ f.dest = byteAt b 2 ∧ f.src = byteAt b 3 ∧ f.frameId = getLe32 b 4 ∧
      f.frameOrder = byteAt b 8 ∧ f.frameTotal = byteAt b 9 ∧ f.payload = slice b 10 60 ∧ f.crc = getLe32 b 60 := by
  unfold Frame.decode at h
  split at h
  · cases h
  · cases h
    exact ⟨rfl, rfl, rfl, rfl, rfl, rfl, rfl, rfl⟩

/-- Settles O17: the length alone decides (`decode_of_length`, `decode_of_length_ne`), each field stands at its offset,
and the fields written back are the block (`toWire_of_decode`). -/
theorem decodeFrameKeepsEveryByte : Obligations.DecodeFrameKeepsEveryByte := by
  refine fun b => ⟨decode_of_length_ne, fun hlen => ?_⟩
  obtain ⟨f, hdec⟩ := decode_of_length hlen
  obtain ⟨hpre, hdest, hsrc, hid, horder, htotal, hpay, hcrc⟩ := fields_of_decode hdec
  obtain ⟨hwire, -, hfull⟩ := toWire_of_decode hdec
  exact ⟨f, hdec, hpre, hdest, hsrc, hid, horder, htotal, hpay, hcrc, hfull, hwire⟩

end Sys2Proof.Machine
end

section
/-! PROOFS. The TICK (spec/42_tick.md): while the block is stopped (R141), and the ageing of the buckets (R143). -/

namespace Sys2Proof.Machine

/-! ### The stopped TICK -/

/-- R141: a stopped TICK returns before its first phase. -/
theorem tick_of_stopped {s : State} (rx : List Byte) (h : s.en = false) : tick rx s = .ok s := by
  unfold tick
  rw [h]
  rfl

/-- Settles O20: a frame row is the TICK of the frame's 64 bytes (R72, entry 5), so the TICK decides all five. -/
theorem stoppedTickChangesNothing : Obligations.StoppedTickChangesNothing := by
  intro s rx f hen
  have htick : ∀ bs, exec (.tick bs) s = .next s := fun bs => exec_tick_of_ok (tick_of_stopped bs hen)
  exact ⟨htick rx, htick f.toWire, htick f.toWire, htick f.toWire, htick f.toWire⟩

/-! ### One ageing -/

@[simp] theorem ageSlot_none (ttl : Word) : ageSlot ttl none = none := rfl

/-- R143 with the age and the time-to-live as numbers. -/
theorem ageSlot_some (ttl : Word) (b : Bucket) :
    ageSlot ttl (some b) =
      if ttl.toNat ≠ 0 ∧ ttl.toNat ≤ min (b.age.toNat + 1) 0xFFFFFFFF then none
      else some { b with age := BitVec.ofNat 32 (min (b.age.toNat + 1) 0xFFFFFFFF) } := by
  have httl : ttl ≠ 0#32 ↔ ttl.toNat ≠ 0 := (BitVec.toNat_ne_iff_ne (y := 0#32)).symm
  simp only [ageSlot, satSucc_toNat, httl, ge_iff_le]
  rfl

@[simp] theorem ageBuckets_slots_length (s : State) : (ageBuckets s).slots.length = s.slots.length :=
  List.length_map _

/-- Ageing acts on each slot by itself. -/
theorem ageBuckets_slot {s : State} {k : Nat} {v : Slot} (h : s.slots[k]? = some v) :
    (ageBuckets s).slots[k]? = some (ageSlot s.bucketTtl v) := by
  simp [ageBuckets, h]

/-! ### Repeated ageing -/

theorem ageBuckets_iterate_slot {s : State} {k : Nat} {v : Slot} (n : Nat) (h : s.slots[k]? = some v) :
    (ageBuckets^[n] s).slots[k]? = some ((ageSlot s.bucketTtl)^[n] v) := by
  induction n generalizing s v with
  | zero => exact h
  | succ n ih => exact ih (ageBuckets_slot h)

/-- What the slot of a bucket of age 0 holds after `n` ageings (`ageSlot_iterate`). -/
def slotAfter (ttl : Word) (b : Bucket) (n : Nat) : Slot :=
  if ttl.toNat ≠ 0 ∧ ttl.toNat ≤ n then none else some { b with age := BitVec.ofNat 32 (min n 0xFFFFFFFF) }

theorem slotAfter_zero (ttl : Word) {b : Bucket} (h : b.age = 0#32) : slotAfter ttl b 0 = some b := by
  obtain ⟨id, total, frags, age⟩ := b
  cases h
  exact if_neg (by omega)

/-- A freed slot stays free; below the time-to-live the count goes on, and saturation is not reached before the
time-to-live, which is a word itself. -/
theorem ageSlot_slotAfter (ttl : Word) (b : Bucket) (n : Nat) :
    ageSlot ttl (slotAfter ttl b n) = slotAfter ttl b (n + 1) := by
  unfold slotAfter
  by_cases hgone : ttl.toNat ≠ 0 ∧ ttl.toNat ≤ n
  · rw [if_pos hgone, if_pos (by omega), ageSlot_none]
  · have hage : (BitVec.ofNat 32 (min n 0xFFFFFFFF)).toNat = min n 0xFFFFFFFF := by
      rw [BitVec.toNat_ofNat]
      omega
    have hsat : min (min n 0xFFFFFFFF + 1) 0xFFFFFFFF = min (n + 1) 0xFFFFFFFF := by omega
    have hreach : ttl.toNat ≤ min (n + 1) 0xFFFFFFFF ↔ ttl.toNat ≤ n + 1 := by omega
    rw [if_neg hgone, ageSlot_some]
    simp only [hage, hsat, hreach]

theorem ageSlot_iterate (ttl : Word) {b : Bucket} (n : Nat) (h : b.age = 0#32) :
    (ageSlot ttl)^[n] (some b) = slotAfter ttl b n := by
  induction n with
  | zero => exact (slotAfter_zero ttl h).symm
  | succ n ih => rw [Function.iterate_succ_apply', ih, ageSlot_slotAfter]

/-- Settles O23: one ageing is `ageSlot` on each slot, and `n` of them take a bucket of age 0 to `slotAfter`. -/
theorem ageingExpiresBuckets : Obligations.AgeingExpiresBuckets := by
  refine ⟨fun s => ⟨rfl, ageBuckets_slots_length s, fun k hfree => ?_, fun k b hb => ?_⟩, fun s k b n hb hage => ?_⟩
  · exact ageBuckets_slot hfree
  · rw [ageBuckets_slot hb, ageSlot_some]
  · rw [ageBuckets_iterate_slot n hb, ageSlot_iterate s.bucketTtl n hage, slotAfter]

end Sys2Proof.Machine
end

section
/-! PROOFS. The data path of the deframer (spec/43_deframer.md): the checks on a block (R151 to R156), the
single-fragment path (R157) and the arbiter (R158 to R165). -/

namespace Sys2Proof.Machine

/-! ### The checks on a block -/

/-- R151. -/
theorem deframe_nil (s : State) : deframe [] s = .ok (.none, s) := rfl

/-- R152. -/
theorem deframe_of_length_ne {rx : List Byte} (s : State) (hne : rx ≠ []) (hlen : rx.length ≠ 64) :
    deframe rx s = .ok (.length, s) := by
  unfold deframe
  rw [if_neg hne, decode_of_length_ne hlen]

/-- R153. -/
theorem deframe_of_invalid {rx : List Byte} {f : Frame} (s : State) (hdec : Frame.decode rx = .ok f)
    (hinvalid : isValid f = .ok false) : deframe rx s = .ok (.crc, s) := by
  have hne : rx ≠ [] := by
    rintro rfl
    cases decode_length hdec
  unfold deframe
  rw [if_neg hne, hdec]
  simp only
  rw [hinvalid]

/-- The validity of a received frame by the bytes of its block: the CRC of the first 60 against the last four (R126). -/
theorem isValid_of_decode_bytes {rx : List Byte} {f : Frame} (hdec : Frame.decode rx = .ok f) :
    isValid f = .ok (crc32 (slice rx 0 60) == getLe32 rx 60) := by
  obtain ⟨hbody, hcrc⟩ := body_of_decode hdec
  rw [isValid_of_decode hdec, hbody, hcrc]

/-- R154. -/
theorem filterFrame_preamble {f : Frame} (s : State) (h : f.preamble ≠ Config.preData) :
    filterFrame f s = (.preamble, s) := if_pos h

/-- R156. -/
theorem filterFrame_outOfRange {f : Frame} {s : State} (hpre : f.preamble = Config.preData)
    (hdest : f.dest = Config.addrHost) (hrange : outOfRange f s = true) : filterFrame f s = (.range, s) := by
  unfold filterFrame
  rw [if_neg (not_not.mpr hpre), if_neg (not_not.mpr hdest), if_pos hrange]

/-- The range check with the fields as numbers. -/
theorem outOfRange_iff (f : Frame) (s : State) :
    outOfRange f s = true ↔ f.frameTotal.toNat = 0 ∨ f.frameOrder.toNat = 0 ∨
      f.frameTotal.toNat < f.frameOrder.toNat ∨ s.cfg.maxFrag.toNat < f.frameTotal.toNat := by
  have hzero : ∀ b : Byte, b = 0#8 ↔ b.toNat = 0 := fun b => BitVec.toNat_inj.symm
  simp [outOfRange, hzero, or_assoc]

/-- Settles O26: a block of 64 bytes is a frame whose fields are its bytes (`fields_of_decode`), and each check has its
lemma above. -/
theorem dataPathChecksInOrder : Obligations.DataPathChecksInOrder := by
  intro rx s
  refine ⟨fun h => h ▸ deframe_nil s, deframe_of_length_ne s, fun hlen hbad => ?badCrc, fun hlen hgood => ?goodCrc⟩
  case badCrc =>
    obtain ⟨f, hdec⟩ := decode_of_length hlen
    exact deframe_of_invalid s hdec (by rw [isValid_of_decode_bytes hdec, beq_eq_false_iff_ne.mpr hbad])
  case goodCrc =>
    obtain ⟨f, hdec⟩ := decode_of_length hlen
    have hvalid : isValid f = .ok true := by rw [isValid_of_decode_bytes hdec, beq_iff_eq.mpr hgood]
    obtain ⟨hpre, hdest, -, -, horder, htotal, -, -⟩ := fields_of_decode hdec
    rw [deframe_of_valid s hdec hvalid, ← hpre, ← hdest, ← horder, ← htotal]
    refine ⟨fun h => ?_, fun h1 h2 => ?_, fun h1 h2 h3 => ?_⟩
    · rw [filterFrame_preamble s h]
    · rw [filterFrame_not_host s h1 h2]
    · rw [filterFrame_outOfRange h1 h2 ((outOfRange_iff f s).mpr h3)]

/-! ### The single-fragment path -/

/-- R157: slot by slot. -/
theorem freeById_eq_map_filter (id : Word) (slots : List Slot) :
    freeById id slots = slots.map fun o => o.filter fun b => decide (b.frameId ≠ id) := by
  refine List.map_congr_left fun o _ => ?_
  cases o with
  | none => rfl
  | some b => by_cases h : b.frameId = id <;> simp [h, Option.filter]

/-- Settles O27: the filters pass the frame to `singleFragment`, which reads no slot. -/
theorem singleFragmentIsDispatched : Obligations.SingleFragmentIsDispatched := by
  intro rx f s hdec hvalid hacc hone
  rw [deframe_of_valid s hdec hvalid, filterFrame_acceptable hacc, if_pos hone, ← freeById_eq_map_filter]
  rfl

/-! ### The arbiter -/

/-- A fragment of a set of two or more reaches the arbiter. -/
theorem deframe_multi {rx : List Byte} {f : Frame} {s : State} (hdec : Frame.decode rx = .ok f)
    (hvalid : isValid f = .ok true) (hacc : Acceptable s.cfg f) (hmulti : f.frameTotal ≠ 1#8) :
    deframe rx s = .ok (multiFragment f s) := by
  rw [deframe_of_valid s hdec hvalid, filterFrame_acceptable hacc, if_neg hmulti]

/-- R158. -/
theorem lookupSlot_of_bucketAt {s : State} {k : Nat} {b : Bucket} (h : s.bucketAt k b) :
    lookupSlot b.frameId s.slots = some (k, b) :=
  lookupSlot_eq_some.mpr ⟨h.1, rfl, h.2⟩

theorem lookupSlot_of_noBucket {s : State} {id : Word} (h : s.noBucket id) : lookupSlot id s.slots = none :=
  lookupSlot_eq_none.mpr fun b hb => h b (mem_buckets.mpr hb)

/-- R159. -/
theorem multiFragment_newcomer {f : Frame} {s : State} {k : Nat} (hnew : s.noBucket f.frameId)
    (hfree : s.lowestFree k) : multiFragment f s = storeFragment k (newBucket f) f s := by
  unfold multiFragment
  rw [lookupSlot_of_noBucket hnew, freeSlot_eq_some.mpr hfree]

/-- R160. -/
theorem multiFragment_overflow {f : Frame} {s : State} (hnew : s.noBucket f.frameId) (hfull : none ∉ s.slots) :
    multiFragment f s = (.overflow, s) := by
  unfold multiFragment
  rw [lookupSlot_of_noBucket hnew, freeSlot_eq_none.mpr hfull]

/-- R161. -/
theorem multiFragment_totalMismatch {f : Frame} {s : State} {k : Nat} {b : Bucket} (hk : s.bucketAt k b)
    (hid : b.frameId = f.frameId) (htotal : b.total ≠ f.frameTotal) : multiFragment f s = (.totalMismatch, s) := by
  unfold multiFragment
  rw [← hid, lookupSlot_of_bucketAt hk]
  exact if_pos htotal

theorem multiFragment_found {f : Frame} {s : State} {k : Nat} {b : Bucket} (hk : s.bucketAt k b)
    (hid : b.frameId = f.frameId) (htotal : b.total = f.frameTotal) : multiFragment f s = storeFragment k b f s := by
  unfold multiFragment
  rw [← hid, lookupSlot_of_bucketAt hk]
  exact if_neg (not_not.mpr htotal)

/-- R162. -/
theorem storeFragment_duplicate {f : Frame} {s : State} {k : Nat} {b : Bucket} (h : f.frameOrder.toNat ∈ b.held) :
    storeFragment k b f s = (.duplicate, s) := if_pos h

/-- R163. -/
theorem storeFragment_stored {f : Frame} {s : State} {k : Nat} {b : Bucket} (hnew : f.frameOrder.toNat ∉ b.held)
    (h : (b.store f.frameOrder.toNat f.payload).complete = false) :
    storeFragment k b f s = (.stored, s.setSlot k (some (b.store f.frameOrder.toNat f.payload))) := by
  unfold storeFragment
  rw [if_neg hnew, h, if_neg Bool.false_ne_true]

/-- R164. -/
theorem storeFragment_completed {f : Frame} {s : State} {k : Nat} {b : Bucket} (hnew : f.frameOrder.toNat ∉ b.held)
    (h : (b.store f.frameOrder.toNat f.payload).complete = true) :
    storeFragment k b f s =
      (.completed, (s.setSlot k none).dispatch (b.store f.frameOrder.toNat f.payload).message) := by
  unfold storeFragment
  rw [if_neg hnew, if_pos h]

/-- R164: while a number of `1 .. total` is missing the bucket is not complete. -/
theorem store_complete_eq_false {b : Bucket} {o j : Nat} {p : List Byte} (h1 : 1 ≤ j) (h2 : j ≤ b.total.toNat)
    (hne : j ≠ o) (hmissing : j ∉ b.held) : (b.store o p).complete = false := by
  rw [Bool.eq_false_iff, Ne, complete_iff]
  intro hfull
  have hj : j ∈ (b.store o p).held := by
    rw [hfull, store_numbers, Bucket.numbers, List.mem_range'_1]
    omega
  exact (mem_store_held.mp hj).elim hne hmissing

/-- R164: once every number of `1 .. total` is there it is. -/
theorem store_complete {cfg : Config.Params} {b : Bucket} {o : Nat} {p : List Byte} (hinv : b.Inv cfg) (h1 : 1 ≤ o)
    (h2 : o ≤ b.total.toNat) (hall : ∀ j, 1 ≤ j → j ≤ b.total.toNat → j = o ∨ j ∈ b.held) :
    (b.store o p).complete = true := by
  refine (complete_iff _).mpr (rising_eq_range' (store_rising hinv.rising) fun j => ?_)
  rw [mem_store_held]
  constructor
  · rintro (rfl | hj)
    · exact ⟨h1, h2⟩
    · exact hinv.inRange j hj
  · rintro ⟨hlow, hhigh⟩
    exact hall j hlow hhigh

/-- Settles O28: the new bucket holds this fragment alone, and its total is at least two. -/
theorem firstFragmentTakesLowestFreeSlot : Obligations.FirstFragmentTakesLowestFreeSlot := by
  intro rx f s k hdec hvalid hacc hmulti hnew hfree
  have htotal : f.frameTotal.toNat ≠ 1 := fun h => hmulti (BitVec.eq_of_toNat_eq h)
  have horder := hacc.orderLow
  have hmax := hacc.orderMax
  have hwaits : ((newBucket f).store f.frameOrder.toNat f.payload).complete = false := by
    obtain ⟨j, h1, h2, hne⟩ : ∃ j, 1 ≤ j ∧ j ≤ f.frameTotal.toNat ∧ j ≠ f.frameOrder.toNat := by
      by_cases hone : f.frameOrder.toNat = 1
      · exact ⟨2, by omega, by omega, by omega⟩
      · exact ⟨1, by omega, by omega, by omega⟩
    exact store_complete_eq_false h1 h2 hne List.not_mem_nil
  rw [deframe_multi hdec hvalid hacc hmulti, multiFragment_newcomer hnew hfree,
    storeFragment_stored List.not_mem_nil hwaits]
  rfl

/-- Settles O29: the three ways past the lookup that file nothing. -/
theorem unfilableFragmentsAreDropped : Obligations.UnfilableFragmentsAreDropped := by
  intro rx f s hdec hvalid hacc hmulti
  rw [deframe_multi hdec hvalid hacc hmulti]
  refine ⟨fun hnew hfull => ?_, fun k b hk hid htotal => ?_, fun k b hk hid htotal hheld => ?_⟩
  · rw [multiFragment_overflow hnew hfull]
  · rw [multiFragment_totalMismatch hk hid htotal]
  · rw [multiFragment_found hk hid htotal, storeFragment_duplicate hheld]

/-- A fragment that its bucket lacks is kept while another is missing (R163). -/
theorem deframe_stored {rx : List Byte} {f : Frame} {s : State} {k : Nat} {b : Bucket} (hdec : Frame.decode rx = .ok f)
    (hvalid : isValid f = .ok true) (hacc : Acceptable s.cfg f) (hmulti : f.frameTotal ≠ 1#8) (hk : s.bucketAt k b)
    (hid : b.frameId = f.frameId) (htotal : b.total = f.frameTotal) (hnew : f.frameOrder.toNat ∉ b.held)
    (hmissing : ∃ j, 1 ≤ j ∧ j ≤ b.total.toNat ∧ j ≠ f.frameOrder.toNat ∧ j ∉ b.held) :
    deframe rx s = .ok (.stored, s.setSlot k (some (b.store f.frameOrder.toNat f.payload))) := by
  obtain ⟨j, h1, h2, hne, hj⟩ := hmissing
  rw [deframe_multi hdec hvalid hacc hmulti, multiFragment_found hk hid htotal,
    storeFragment_stored hnew (store_complete_eq_false h1 h2 hne hj)]

/-- Settles O30: the bucket kept is `Bucket.store` of the old one, and its lemmas name what it holds. -/
theorem fragmentIsStored : Obligations.FragmentIsStored := by
  intro rx f s k b hdec hvalid hacc hmulti hk hid htotal hinv hnew hmissing
  have hfrag := store_frag (o := f.frameOrder.toNat) (p := f.payload) hinv.rising
  refine ⟨b.store f.frameOrder.toNat f.payload,
    deframe_stored hdec hvalid hacc hmulti hk hid htotal hnew hmissing, rfl, rfl, rfl, fun j => mem_store_held, ?_,
    fun j hj => ?_⟩
  · rw [hfrag, if_pos rfl]
  · rw [hfrag, if_neg hj]

/-! ### The message of a bucket -/

/-- R31: each fragment held is a whole payload. -/
theorem Bucket.Inv.frag_length {cfg : Config.Params} {b : Bucket} (hinv : b.Inv cfg) {j : Nat} (hj : j ∈ b.held) :
    (b.frag j).length = 50 := by
  obtain ⟨p, hp⟩ : ∃ p, b.frags.lookup j = some p := by
    obtain ⟨q, hq, rfl⟩ := List.mem_map.mp hj
    exact Option.isSome_iff_exists.mp (List.lookup_isSome_iff.mpr ⟨q, hq, beq_self_eq_true _⟩)
  obtain ⟨before, after, hsplit, -⟩ := List.lookup_eq_some_iff.mp hp
  have hmem : (j, p) ∈ b.frags := hsplit ▸ List.mem_append_right before List.mem_cons_self
  rw [Bucket.frag, hp]
  exact hinv.payloads _ hmem

/-- 50 bytes a fragment (R164). -/
theorem message_length {b : Bucket} (h : ∀ j, 1 ≤ j → j ≤ b.total.toNat → (b.frag j).length = 50) :
    b.message.length = 50 * b.total.toNat := by
  have hlengths : ∀ j ∈ b.numbers, (b.frag j).length = 50 := by
    intro j hj
    obtain ⟨hlow, hhigh⟩ := List.mem_range'_1.mp hj
    exact h j hlow (by omega)
  rw [Bucket.message, List.length_flatMap, List.map_eq_replicate_iff.mpr hlengths, List.sum_replicate, Bucket.numbers,
    List.length_range', smul_eq_mul, Nat.mul_comm]

theorem store_message {b : Bucket} {o : Nat} {p : List Byte} (h : b.held.Pairwise (· < ·)) :
    (b.store o p).message = b.numbers.flatMap fun j => if j = o then p else b.frag j :=
  congrArg (b.numbers.flatMap ·) (funext (store_frag h))

/-- Settles O31: the numbers of a bucket are `1 .. total` in order (`store_message`), whatever order they came in. -/
theorem lastFragmentCompletesMessage : Obligations.LastFragmentCompletesMessage := by
  intro rx f s k b m hdec hvalid hacc hmulti hk hid htotal hinv hnew hm
  have hmessage : (b.store f.frameOrder.toNat f.payload).message = m := by rw [store_message hinv.rising, hm]; rfl
  refine ⟨fun hall => ⟨?_, ?_⟩, fun hmissing => ?_⟩
  · rw [← hmessage, message_length (b := b.store f.frameOrder.toNat f.payload), store_total]
    intro j hlow hhigh
    rw [store_frag hinv.rising]
    split
    · exact hacc.payload
    · rename_i hne
      exact hinv.frag_length ((hall j hlow hhigh).resolve_left hne)
  · have hfull := store_complete (p := f.payload) hinv hacc.orderLow (htotal ▸ hacc.orderMax) hall
    rw [deframe_multi hdec hvalid hacc hmulti, multiFragment_found hk hid htotal, storeFragment_completed hnew hfull,
      hmessage]
    rfl
  · exact ⟨_, deframe_stored hdec hvalid hacc hmulti hk hid htotal hnew hmissing⟩

end Sys2Proof.Machine
end

section
/-! PROOFS. The discovery check of the deframer (spec/43_deframer.md R167 to R169). -/

namespace Sys2Proof.Machine

/-! ### What the check does with a block -/

theorem discOutstanding_iff (s : State) :
    s.discOutstanding = true ↔ s.discState = .wait ∧ s.discPending = false := by
  simp [State.discOutstanding]

/-- R167: with no request outstanding no block is judged. -/
theorem discObserve_idle {s : State} (rx : List Byte) (h : ¬(s.discState = .wait ∧ s.discPending = false)) :
    discObserve rx s = .ok s :=
  if_neg (mt (discOutstanding_iff s).mp h)

/-- R168. -/
theorem discObserve_empty {s : State} (h : s.discState = .wait ∧ s.discPending = false) :
    discObserve [] s = .ok (discTimeoutTick s) :=
  if_pos ((discOutstanding_iff s).mpr h)

/-- R167. -/
theorem discObserve_block {s : State} {rx : List Byte} {good : Bool}
    (h : s.discState = .wait ∧ s.discPending = false) (hne : rx ≠ []) (hgood : goodReply rx = .ok good) :
    discObserve rx s = .ok (s.setDiscState (if good then .ok else .fail)) := by
  unfold discObserve
  rw [if_pos ((discOutstanding_iff s).mpr h), if_neg hne, hgood]
  cases good
  · rfl
  · rfl

theorem goodReply_of_decode {rx : List Byte} {f : Frame} (hdec : Frame.decode rx = .ok f) :
    goodReply rx = .ok (decide (f.preamble = 0x0003#16 ∧ f.crc = crc32 (frameBody f))) := by
  have hsame : (crc32 (frameBody f) == f.crc && f.preamble == Config.preDiscRsp) =
      decide (f.preamble = 0x0003#16 ∧ f.crc = crc32 (frameBody f)) := by
    rw [Bool.eq_iff_iff, Bool.and_eq_true, beq_iff_eq, beq_iff_eq, decide_eq_true_eq, and_comm, eq_comm (a := f.crc)]
    rfl
  unfold goodReply
  rw [hdec, ← hsame]
  simp only
  rw [isValid_of_decode hdec]

/-- R167 by the bytes of the block. -/
theorem goodReply_eq (rx : List Byte) :
    goodReply rx =
      .ok (decide (rx.length = 64 ∧ crc32 (slice rx 0 60) = getLe32 rx 60 ∧ getLe16 rx 0 = 0x0003#16)) := by
  by_cases hlen : rx.length = 64
  · obtain ⟨f, hdec⟩ := decode_of_length hlen
    obtain ⟨hbody, hcrc⟩ := body_of_decode hdec
    rw [goodReply_of_decode hdec, (fields_of_decode hdec).1, hbody, hcrc]
    simp only [hlen, true_and, and_comm, eq_comm]
  · have hbad : ¬(rx.length = 64 ∧ crc32 (slice rx 0 60) = getLe32 rx 60 ∧ getLe16 rx 0 = 0x0003#16) :=
      fun h => hlen h.1
    unfold goodReply
    rw [decode_of_length_ne hlen, decide_eq_false hbad]

/-- Settles O34: the check tests for an outstanding request first, then for a block, and judges it by `goodReply_eq`. -/
theorem discoveryJudgesFirstBlock : Obligations.DiscoveryJudgesFirstBlock := by
  refine fun s rx => ⟨fun h => ?idle, fun hwait hsent hne => ?block,
    fun hwait hsent => discObserve_empty ⟨hwait, hsent⟩⟩
  case idle =>
    refine discObserve_idle rx fun ⟨hwait, hsent⟩ => ?_
    rcases h with h | h
    · exact h hwait
    · simp [hsent] at h
  case block =>
    rw [discObserve_block ⟨hwait, hsent⟩ hne (goodReply_eq rx)]
    simp only [decide_eq_true_eq]
    rfl

/-- The verdict of discovery after a frame (R167). -/
def State.judged (s : State) (f : Frame) : DiscState :=
  if s.discState = .wait ∧ s.discPending = false then
    (if f.preamble = 0x0003#16 ∧ f.crc = crc32 (frameBody f) then .ok else .fail)
  else s.discState

theorem discObserve_of_decode {rx : List Byte} {f : Frame} (s : State) (hdec : Frame.decode rx = .ok f) :
    discObserve rx s = .ok (s.setDiscState (s.judged f)) := by
  unfold State.judged
  split
  · rename_i h
    have hne : rx ≠ [] := by
      rintro rfl
      cases decode_length hdec
    rw [discObserve_block h hne (goodReply_of_decode hdec)]
    simp only [decide_eq_true_eq]
  · rename_i h
    rw [discObserve_idle rx h]
    rfl

/-! ### A running TICK around the check -/

/-- With no request pending the outgoing phase leaves the wait count (R184). -/
theorem outgoing_discWait {s t : State} (hsent : s.discPending = false) (h : outgoing s = .ok t) :
    t.discWait = s.discWait := by
  unfold outgoing at h
  rw [sendRequest_eq, hsent] at h
  obtain ⟨-, rfl⟩ | ⟨m, rest, -, rfl⟩ := sendHead_cases h
  · rfl
  · rfl

/-- R142: the check's answer `u`, the data path's `w` on it, and a TICK that keeps the one's verdict and the other's
store. -/
theorem tick_of_observed {s u : State} {rx : List Byte} (hen : s.en = true)
    (hu : discObserve rx (ageBuckets (s.takeRx rx)) = .ok u) :
    ∃ v w t, deframe rx u = .ok (v, w) ∧ exec (.tick rx) s = .next t ∧ SameSettings s t ∧ SameReceiveSide w t ∧
      t.discState = u.discState ∧ t.discPending = false ∧ (s.discPending = false → t.discWait = u.discWait) := by
  obtain ⟨v, w, hw⟩ := deframe_total rx u
  obtain ⟨t, ht⟩ := outgoing_total w
  have htick : tick rx s = .ok t := by
    unfold tick runTick incoming
    rw [if_pos hen, hu]
    simp only
    rw [hw]
    exact ht
  obtain ⟨-, hsendU, -⟩ := discObserve_frame hu
  obtain ⟨-, hsendW, hstateW, hwaitW, -⟩ := deframe_frame hw
  obtain ⟨-, hsent, -⟩ := outgoing_cases ht
  have hrecv := (outgoing_frame ht).2
  refine ⟨v, w, t, hw, exec_tick_of_ok htick, tick_settings htick, hrecv, hrecv.discState.trans hstateW, hsent,
    fun hpending => ?_⟩
  have hpendingW : w.discPending = false := (hsendU.trans hsendW).discPending.trans hpending
  rw [outgoing_discWait hpendingW ht, hwaitW]

/-! ### Empty ticks -/

@[simp] theorem ageBuckets_discState (s : State) : (ageBuckets s).discState = s.discState := rfl

@[simp] theorem ageBuckets_discWait (s : State) : (ageBuckets s).discWait = s.discWait := rfl

@[simp] theorem ageBuckets_discTimeout (s : State) : (ageBuckets s).discTimeout = s.discTimeout := rfl

theorem discTimeoutTick_discState (s : State) :
    (discTimeoutTick s).discState =
      if s.discTimeout.toNat ≤ min (s.discWait.toNat + 1) 0xFFFFFFFF then .fail else s.discState := by
  unfold discTimeoutTick
  rw [satSucc_toNat]
  split
  · rfl
  · rfl

theorem discTimeoutTick_discWait (s : State) : (discTimeoutTick s).discWait = satSucc s.discWait := by
  unfold discTimeoutTick
  split
  · rfl
  · rfl

/-- The state `t` after `n` empty running ticks from `s`, where discovery waited with a count of 0 (R168). -/
structure WaitedTicks (s : State) (n : Nat) (t : State) : Prop where
  en          : t.en = true
  discTimeout : t.discTimeout = s.discTimeout
  discPending : t.discPending = false
  waits       : n < max 1 s.discTimeout.toNat → t.discState = .wait ∧ t.discWait.toNat = n
  fails       : max 1 s.discTimeout.toNat ≤ n → t.discState = .fail

/-- One more empty tick: the count grows while discovery waits, and reaching the timeout ends the wait. -/
theorem WaitedTicks.tick {s t : State} {n : Nat} (h : WaitedTicks s n t) :
    ∃ u, exec (.tick []) t = .next u ∧ WaitedTicks s (n + 1) u := by
  by_cases hn : n < max 1 s.discTimeout.toNat
  · obtain ⟨hwait, hcount⟩ := h.waits hn
    obtain ⟨-, -, u, -, hexec, hset, -, hstate, hsent, hdiscWait⟩ :=
      tick_of_observed (rx := []) h.en (discObserve_empty ⟨hwait, h.discPending⟩)
    have hbound : min (n + 1) 0xFFFFFFFF = n + 1 := by omega
    have hstate' : u.discState = if s.discTimeout.toNat ≤ n + 1 then .fail else .wait := by
      simp only [hstate, discTimeoutTick_discState, ageBuckets_discTimeout, ageBuckets_discWait, ageBuckets_discState,
        State.takeRx_discTimeout, State.takeRx_discWait, State.takeRx_discState, h.discTimeout, hcount, hwait, hbound]
    have hcount' : u.discWait.toNat = n + 1 := by
      rw [hdiscWait h.discPending, discTimeoutTick_discWait, satSucc_toNat, ageBuckets_discWait, State.takeRx_discWait,
        hcount, hbound]
    refine ⟨u, hexec, hset.en.trans h.en, hset.discTimeout.trans h.discTimeout, hsent, fun hlt => ⟨?_, hcount'⟩,
      fun hge => ?_⟩
    · rw [hstate', if_neg (by omega)]
    · rw [hstate', if_pos (by omega)]
  · have hfail := h.fails (by omega)
    have hjudged : ¬(t.discState = .wait ∧ t.discPending = false) := by simp [hfail]
    obtain ⟨-, -, u, -, hexec, hset, -, hstate, hsent, -⟩ :=
      tick_of_observed (rx := []) h.en (discObserve_idle [] hjudged)
    exact ⟨u, hexec, hset.en.trans h.en, hset.discTimeout.trans h.discTimeout, hsent, fun hlt => by omega,
      fun _ => hstate.trans hfail⟩

theorem runInstrs_cons_of_next {i : Instr} {s t : State} (is : List Instr) (h : exec i s = .next t) :
    runInstrs (i :: is) s = runInstrs is t := by
  rw [runInstrs, h]

/-- A run that ends in a state goes on from it. -/
theorem runInstrs_append_of_next {is : List Instr} {s t : State} (js : List Instr) (h : runInstrs is s = .next t) :
    runInstrs (is ++ js) s = runInstrs js t := by
  induction is generalizing s with
  | nil =>
    cases h
    rfl
  | cons i is ih =>
    cases hi : exec i s with
    | next u =>
      rw [runInstrs_cons_of_next is hi] at h
      rw [List.cons_append, runInstrs_cons_of_next _ hi, ih h]
    | fault e =>
      rw [runInstrs, hi] at h
      cases h
    | refused r =>
      rw [runInstrs, hi] at h
      cases h

theorem runInstrs_emptyTicks {s : State} (n : Nat) (hen : s.en = true) (hwait : s.discState = .wait)
    (hsent : s.discPending = false) (hcount : s.discWait = 0#32) :
    ∃ t, runInstrs (List.replicate n (.tick [])) s = .next t ∧ WaitedTicks s n t := by
  induction n with
  | zero => exact ⟨s, rfl, hen, rfl, hsent, fun _ => ⟨hwait, by rw [hcount]; rfl⟩, fun h => by omega⟩
  | succ n ih =>
    obtain ⟨t, hrun, hwaited⟩ := ih
    obtain ⟨u, hexec, hnext⟩ := hwaited.tick
    refine ⟨u, ?_, hnext⟩
    rw [List.replicate_succ', runInstrs_append_of_next _ hrun, runInstrs_cons_of_next _ hexec]
    rfl

/-- A frame on the wire is judged by its fields (R72, entry 5: its row is the TICK of its bytes). -/
theorem tick_frame {s : State} {f : Frame} (hen : s.en = true) (hpay : f.payload.length = 50) :
    ∃ v w t, deframe f.toWire ((ageBuckets (s.takeRx f.toWire)).setDiscState (s.judged f)) = .ok (v, w) ∧
      exec (.tick f.toWire) s = .next t ∧ SameSettings s t ∧ SameReceiveSide w t ∧ t.discState = s.judged f := by
  obtain ⟨v, w, t, hw, hexec, hset, hrecv, hstate, -⟩ :=
    tick_of_observed hen (discObserve_of_decode _ (decode_toWire hpay))
  exact ⟨v, w, t, hw, hexec, hset, hrecv, hstate⟩

/-- Settles O35: the ticks by `runInstrs_emptyTicks`, the reply by `tick_frame`. -/
theorem discoveryFailsAfterTimeout : Obligations.DiscoveryFailsAfterTimeout := by
  intro s n hen hwait hsent hcount
  obtain ⟨t, hrun, hwaited⟩ := runInstrs_emptyTicks n hen hwait hsent hcount
  refine ⟨t, hrun, ?_, fun hn f hpay hpre hcrc => ?_⟩
  · split
    · rename_i hn
      exact (hwaited.waits hn).1
    · rename_i hn
      exact hwaited.fails (by omega)
  · obtain ⟨-, -, u, -, hexec, -, -, hstate⟩ := tick_frame (f := f) hwaited.en hpay
    refine ⟨u, hexec, ?_⟩
    rw [hstate, State.judged, if_pos ⟨(hwaited.waits hn).1, hwaited.discPending⟩, if_pos ⟨hpre, hcrc⟩]

/-! ### Discovery and the data path -/

/-- A frame that is no data frame leaves the state as it is (R153, R154). -/
theorem deframe_not_data {rx : List Byte} {f : Frame} {s t : State} {v : Verdict} (hdec : Frame.decode rx = .ok f)
    (hpre : f.preamble ≠ Config.preData) (h : deframe rx s = .ok (v, t)) : t = s := by
  obtain ⟨-, hts⟩ | ⟨g, hg, -, hacc, -⟩ := deframe_cases h
  · exact hts
  · cases hdec.symm.trans hg
    exact absurd hacc.preamble hpre

/-- What the data path reads and writes (R150): the parameters, the slots, the last message. -/
structure SameStore (s t : State) : Prop where
  cfg     : t.cfg = s.cfg
  slots   : t.slots = s.slots
  lastMsg : t.lastMsg = s.lastMsg
  lastSeq : t.lastSeq = s.lastSeq
  msgRx   : t.msgRx = s.msgRx

theorem SameStore.setSlots {s t : State} (h : SameStore s t) (v : List Slot) :
    SameStore (s.setSlots v) (t.setSlots v) :=
  ⟨h.cfg, rfl, h.lastMsg, h.lastSeq, h.msgRx⟩

theorem SameStore.setSlot {s t : State} (h : SameStore s t) (k : Nat) (v : Slot) :
    SameStore (s.setSlot k v) (t.setSlot k v) := by
  unfold State.setSlot
  rw [h.slots]
  exact h.setSlots _

theorem SameStore.dispatch {s t : State} (h : SameStore s t) (m : List Byte) :
    SameStore (s.dispatch m) (t.dispatch m) :=
  ⟨h.cfg, h.slots, rfl, congrArg (· + 1#32) h.lastSeq, congrArg (· ++ [m]) h.msgRx⟩

theorem SameStore.singleFragment {s t : State} (h : SameStore s t) (f : Frame) :
    SameStore (singleFragment f s) (singleFragment f t) := by
  unfold Machine.singleFragment
  rw [h.slots]
  exact (h.setSlots _).dispatch f.payload

/-- The same verdict, and states with the same store. -/
def SameAnswer (p q : Verdict × State) : Prop := q.1 = p.1 ∧ SameStore p.2 q.2

theorem storeFragment_sameStore {s t : State} (h : SameStore s t) (k : Nat) (b : Bucket) (f : Frame) :
    SameAnswer (storeFragment k b f s) (storeFragment k b f t) := by
  unfold storeFragment
  split
  · exact ⟨rfl, h⟩
  · split
    · exact ⟨rfl, (h.setSlot k none).dispatch _⟩
    · exact ⟨rfl, h.setSlot k _⟩

theorem multiFragment_sameStore {s t : State} (h : SameStore s t) (f : Frame) :
    SameAnswer (multiFragment f s) (multiFragment f t) := by
  unfold multiFragment
  rw [h.slots]
  split
  · split
    · exact ⟨rfl, h⟩
    · exact storeFragment_sameStore h _ _ f
  · split
    · exact ⟨rfl, h⟩
    · exact storeFragment_sameStore h _ _ f

theorem filterFrame_sameStore {s t : State} (h : SameStore s t) (f : Frame) :
    SameAnswer (filterFrame f s) (filterFrame f t) := by
  have hrange : outOfRange f t = outOfRange f s := by rw [outOfRange, outOfRange, h.cfg]
  unfold filterFrame
  rw [hrange]
  split_ifs
  · exact ⟨rfl, h⟩
  · exact ⟨rfl, h⟩
  · exact ⟨rfl, h⟩
  · exact ⟨rfl, h.singleFragment f⟩
  · exact multiFragment_sameStore h f

/-- The data path neither reads nor judges what discovery and the ports hold. -/
theorem deframe_sameStore {s t : State} (h : SameStore s t) (rx : List Byte) :
    ∃ p q, deframe rx s = .ok p ∧ deframe rx t = .ok q ∧ SameAnswer p q := by
  unfold deframe
  split
  · exact ⟨_, _, rfl, rfl, rfl, h⟩
  · split
    · exact ⟨_, _, rfl, rfl, rfl, h⟩
    · rename_i f hdec
      rw [isValid_of_decode hdec]
      cases crc32 (frameBody f) == f.crc
      · exact ⟨_, _, rfl, rfl, rfl, h⟩
      · exact ⟨_, _, rfl, rfl, filterFrame_sameStore h f⟩

/-- R169, the frames that are no data frames: judged, and no further. -/
theorem tick_not_data {s : State} {f : Frame} (hen : s.en = true) (hpay : f.payload.length = 50)
    (hpre : f.preamble ≠ Config.preData) :
    ∃ t, exec (.tick f.toWire) s = .next t ∧ SameSettings s t ∧ t.slots = (ageBuckets s).slots ∧
      t.lastMsg = s.lastMsg ∧ t.lastSeq = s.lastSeq ∧ t.msgRx = s.msgRx ∧ t.discState = s.judged f := by
  obtain ⟨v, w, t, hw, hexec, hset, hrecv, hstate⟩ := tick_frame hen hpay
  obtain rfl := deframe_not_data (decode_toWire hpay) hpre hw
  exact ⟨t, hexec, hset, hrecv.slots, hrecv.lastMsg, hrecv.lastSeq, hrecv.msgRx, hstate⟩

/-- R169: a data frame fails an outstanding discovery. -/
theorem judged_of_data (s : State) {f : Frame} (hpre : f.preamble = Config.preData) :
    s.judged f = if s.discState = .wait ∧ s.discPending = false then .fail else s.discState := by
  have hbad : ¬(f.preamble = 0x0003#16 ∧ f.crc = crc32 (frameBody f)) := by
    rw [hpre]
    exact fun h => absurd h.1 (by decide)
  rw [State.judged, if_neg hbad]

/-- A frame row other than DATA holds a frame of the wire with another preamble, and is the TICK of its bytes. -/
theorem not_data_of_wellFormed {i : Instr} {f : Frame} (hwf : i.wellFormed = true)
    (hi : i = .frameDiscReq f ∨ i = .frameDiscRsp f ∨ i = .frameReserved f) :
    f.payload.length = 50 ∧ f.preamble ≠ Config.preData ∧ ∀ s, exec i s = exec (.tick f.toWire) s := by
  rcases hi with rfl | rfl | rfl
  · simp only [Instr.wellFormed, Frame.onWire, Bool.and_eq_true, beq_iff_eq] at hwf
    obtain ⟨hpay, hpre⟩ := hwf
    exact ⟨hpay, hpre ▸ by decide, fun _ => rfl⟩
  · simp only [Instr.wellFormed, Frame.onWire, Bool.and_eq_true, beq_iff_eq] at hwf
    obtain ⟨hpay, hpre⟩ := hwf
    exact ⟨hpay, hpre ▸ by decide, fun _ => rfl⟩
  · simp only [Instr.wellFormed, Frame.onWire, Bool.and_eq_true, beq_iff_eq, bne_iff_ne] at hwf
    obtain ⟨⟨⟨hpay, hpre⟩, -⟩, -⟩ := hwf
    exact ⟨hpay, hpre, fun _ => rfl⟩

/-- Settles O36: every frame row is the TICK of its bytes; the check moves `disc_state` alone, which the data path does
not read (`deframe_sameStore`). -/
theorem discoveryDoesNotHoldDataPath : Obligations.DiscoveryDoesNotHoldDataPath := by
  refine ⟨fun s i f hen hwf hi => ?notData, fun s f hen hpay hpre => ?data, fun s f hen hacc hone hcrc => ?single⟩
  case notData =>
    obtain ⟨hpay, hpre, hexec⟩ := not_data_of_wellFormed hwf hi
    rw [hexec]
    exact tick_not_data hen hpay hpre
  case data =>
    obtain ⟨v, w, t, hw, hexec, hset, hrecv, hstate⟩ := tick_frame hen hpay
    have hsame : SameStore (ageBuckets s) ((ageBuckets (s.takeRx f.toWire)).setDiscState (s.judged f)) :=
      ⟨rfl, rfl, rfl, rfl, rfl⟩
    obtain ⟨⟨v', u⟩, q, hu, hq, -, hstore⟩ := deframe_sameStore hsame f.toWire
    cases hw.symm.trans hq
    exact ⟨v', u, t, hu, hexec, hset, hrecv.slots.trans hstore.slots, hrecv.lastMsg.trans hstore.lastMsg,
      hrecv.lastSeq.trans hstore.lastSeq, hrecv.msgRx.trans hstore.msgRx, hstate.trans (judged_of_data s hpre)⟩
  case single =>
    have hvalid : isValid f = .ok true := by
      rw [isValid_of_decode (decode_toWire hacc.payload), beq_iff_eq.mpr hcrc.symm]
    obtain ⟨v, w, t, hw, hexec, hset, hrecv, hstate⟩ := tick_frame hen hacc.payload
    have hdispatched := singleFragmentIsDispatched f.toWire f
      ((ageBuckets (s.takeRx f.toWire)).setDiscState (s.judged f)) (decode_toWire hacc.payload) hvalid hacc hone
    cases hw.symm.trans hdispatched
    exact ⟨t, hexec, hset, hrecv.lastMsg, hrecv.lastSeq, hrecv.msgRx, hstate.trans (judged_of_data s hacc.preamble)⟩

end Sys2Proof.Machine
end

section
/-! PROOFS. The framer (spec/44_framer.md): submission (R180 to R182), the message a TICK sends (R185 to R187), and the
discovery request before it (R184, R190). -/

namespace Sys2Proof.Machine

/-! ### Submission -/

/-- R181. -/
theorem submitStatus_oversize {m : List Byte} (s : State) (h : 12750 < m.length) : submitStatus m s = .oversize :=
  if_pos h

/-- R182. -/
theorem submitStatus_full {m : List Byte} {s : State} (hfits : m.length ≤ 12750)
    (hfull : s.txq.length = s.cfg.txqMax.toNat) : submitStatus m s = .full := 
  (if_neg hfits.not_gt).trans (if_pos hfull)

theorem submitStatus_accept {m : List Byte} {s : State} (hfits : m.length ≤ 12750)
    (hroom : s.txq.length ≠ s.cfg.txqMax.toNat) : submitStatus m s = .accept := 
  (if_neg hfits.not_gt).trans (if_neg hroom)

/-- R180: a submission is answered by its status. -/
theorem exec_submit (m : List Byte) (s : State) :
    exec (.submit m) s = .next ((submit m s).answer (.status (submitStatus m s))) := rfl

/-- R183. -/
theorem exec_submit_accept {m : List Byte} {s : State} (h : submitStatus m s = .accept) :
    exec (.submit m) s = .next ((s.setTxq (s.txq ++ [m])).answer (.status .accept)) := by
  obtain ⟨-, e⟩ | ⟨hne, -⟩ := submit_cases m s
  · rw [exec_submit, e, h]
  · exact absurd h hne

/-- R181, R182: a refusal is the answer and nothing else. -/
theorem exec_submit_refused {m : List Byte} {s : State} {st : SubmitStatus} (h : submitStatus m s = st)
    (hrefused : st ≠ .accept) : exec (.submit m) s = .next (s.answer (.status st)) := by
  obtain ⟨hacc, -⟩ | ⟨-, e⟩ := submit_cases m s
  · exact absurd (h.symm.trans hacc) hrefused
  · rw [exec_submit, e, h]

/-- Settles O37: the status decides, and it tests the length before the room in the queue. -/
theorem submitAnswersItsStatus : Obligations.SubmitAnswersItsStatus :=
  fun _ s => ⟨fun hlong => exec_submit_refused (submitStatus_oversize s hlong) (by decide),
    fun hfits hfull => exec_submit_refused (submitStatus_full hfits hfull) (by decide),
    fun hfits hroom => exec_submit_accept (submitStatus_accept hfits hroom)⟩

/-! ### What the receiver decodes -/

/-- The frame that the encoding of `f` decodes to (`decode_wireOf`): the payload padded, the CRC computed. -/
def receivedFrame (f : Frame) : Frame := { f with payload := padded f.payload, crc := crc32 (frameBody f) }

theorem padded_length {p : List Byte} (h : p.length ≤ 50) : (padded p).length = 50 := by
  simp only [padded, List.length_append, zeros_length, Config.payloadLen]
  omega

theorem decode_wireOf {f : Frame} (h : f.payload.length ≤ 50) : Frame.decode (wireOf f) = .ok (receivedFrame f) := by
  rw [wireOf_eq_toWire]
  exact decode_toWire (padded_length h)

/-- The padding is what the CRC already covers (R75), so the computed CRC is the received frame's own. -/
theorem isValid_receivedFrame {f : Frame} (h : f.payload.length ≤ 50) : isValid (receivedFrame f) = .ok true := by
  have hbody : frameBody (receivedFrame f) = frameBody f := frameBody_padded h _
  rw [isValid_of_decode (decode_wireOf h), hbody]
  exact congrArg Except.ok (beq_self_eq_true _)

/-! ### The fragments of a message -/

/-- R181: 255 fragments are enough for the longest message. -/
theorem fragmentCount_le {m : List Byte} (h : m.length ≤ 12750) : fragmentCount m ≤ 255 := by
  unfold fragmentCount ceilDiv Config.payloadLen
  omega

theorem length_le_fragmentCount (m : List Byte) : m.length ≤ 50 * fragmentCount m := by
  unfold fragmentCount ceilDiv Config.payloadLen
  omega

@[simp] theorem fragments_length (dst : Byte) (id : Word) (m : List Byte) :
    (fragments dst id m).length = fragmentCount m := by
  simp [fragments]

/-- R186: fragment `i` is the frame of slice `i`. -/
theorem eq_fragment_of_getElem? {dst : Byte} {id : Word} {m : List Byte} {i : Nat} {f : Frame}
    (h : (fragments dst id m)[i]? = some f) : i < fragmentCount m ∧ f = fragment dst id m i := by
  obtain ⟨hi, rfl⟩ := List.getElem?_eq_some_iff.mp h
  exact ⟨by simpa using hi, by simp [fragments]⟩

/-- R187: the numbers of the fragments fit their byte. -/
theorem fragment_numbers {m : List Byte} {i : Nat} (dst : Byte) (id : Word) (hlen : m.length ≤ 12750)
    (hi : i < fragmentCount m) : (fragment dst id m i).frameOrder.toNat = i + 1 ∧
      (fragment dst id m i).frameTotal.toNat = fragmentCount m := by
  have hcount := fragmentCount_le hlen
  simp only [fragment, BitVec.toNat_ofNat]
  omega

/-- `slice` clips at the end of the message by itself. -/
theorem messageSlice_eq (m : List Byte) (i : Nat) : messageSlice m i = slice m (50 * i) (50 * i + 50) := by
  unfold messageSlice slice
  rw [← List.take_eq_take_min]
  rfl

theorem take_append_slice (m : List Byte) {i j : Nat} (h : i ≤ j) : m.take i ++ slice m i j = m.take j := by
  have hfirst : (m.take j).take i = m.take i := by rw [List.take_take, Nat.min_eq_left h]
  rw [slice, ← hfirst, List.take_append_drop]

theorem zeros_append (a b : Nat) : zeros a ++ zeros b = zeros (a + b) := List.replicate_append_replicate

/-- Either the message reaches past byte `i` and no zeros stand before the slice, or the slice is empty. -/
theorem zeros_append_slice (m : List Byte) (i j : Nat) :
    zeros (i - m.length) ++ slice m i j = slice m i j ++ zeros (i - m.length) := by
  rcases le_total i m.length with hwithin | hpast
  · rw [Nat.sub_eq_zero_of_le hwithin]
    exact (List.append_nil _).symm
  · have hempty : slice m i j = [] := by
      rw [← List.length_eq_zero_iff, slice_length]
      omega
    rw [hempty, List.append_nil, List.nil_append]

/-- The first `n` padded slices, joined: the message up to there, then the padding of the last (R75, R186). -/
theorem flatMap_padded_slices (m : List Byte) (n : Nat) :
    (List.range n).flatMap (fun i => padded (messageSlice m i)) = m.take (50 * n) ++ zeros (50 * n - m.length) := by
  induction n with
  | zero => simp [zeros]
  | succ n ih =>
    have hpad : 50 * n - m.length + (50 - (slice m (50 * n) (50 * n + 50)).length) = 50 * (n + 1) - m.length := by
      rw [slice_length]
      omega
    calc (List.range (n + 1)).flatMap (fun i => padded (messageSlice m i))
      _ = m.take (50 * n) ++ zeros (50 * n - m.length) ++ padded (slice m (50 * n) (50 * n + 50)) := by
        rw [List.range_succ, List.flatMap_append, ih, List.flatMap_singleton, messageSlice_eq]
      _ = (m.take (50 * n) ++ slice m (50 * n) (50 * n + 50)) ++
          (zeros (50 * n - m.length) ++ zeros (50 - (slice m (50 * n) (50 * n + 50)).length)) := by
        rw [padded, Config.payloadLen, List.append_assoc, ← List.append_assoc (zeros _), zeros_append_slice]
        simp only [List.append_assoc]
      _ = m.take (50 * (n + 1)) ++ zeros (50 * (n + 1) - m.length) := by
        rw [take_append_slice m (Nat.le_add_right _ _), zeros_append, hpad]
        rfl

/-- The payloads received carry the message (R186). -/
theorem flatMap_received_take (dst : Byte) (id : Word) (m : List Byte) :
    (((fragments dst id m).map receivedFrame).flatMap Frame.payload).take m.length = m := by
  have hjoined : ((fragments dst id m).map receivedFrame).flatMap Frame.payload =
      (List.range (fragmentCount m)).flatMap fun i => padded (messageSlice m i) := by
    rw [fragments, List.map_map, List.flatMap_map]
    rfl
  rw [hjoined, flatMap_padded_slices, List.take_of_length_le (length_le_fragmentCount m), List.take_left]

/-! ### The outgoing phase of a running TICK -/

theorem SameSendSide.nextId {s t : State} (h : SameSendSide s t) : t.nextId = s.nextId := by
  unfold State.nextId
  rw [h.frameIdRand, h.draws]

theorem SameSendSide.drawn {s t : State} (h : SameSendSide s t) : SameSendSide s.drawn t.drawn :=
  ⟨h.txq, h.txRaw, h.discPending, congrArg List.tail h.frameIdRand, congrArg (· + 1) h.draws⟩

/-- R142: what a running TICK sends, it sends from a state `w` with the queue, the request and the draws it found.
While the request is pending, no block is judged (R167). -/
theorem tick_outgoing {s : State} (rx : List Byte) (hen : s.en = true) :
    ∃ w t, SameSettings s w ∧ SameSendSide s w ∧ (s.discPending = true → w.discState = s.discState) ∧
      outgoing w = .ok t ∧ exec (.tick rx) s = .next t := by
  obtain ⟨t, htick⟩ := tick_total rx s
  have hrun : runTick rx s = .ok t := by rwa [tick, if_pos hen] at htick
  obtain ⟨u, v, w, hu, hw, hout⟩ := runTick_cases hrun
  have hset : SameSettings s (ageBuckets (s.takeRx rx)) := ⟨rfl, rfl, rfl, rfl, rfl, rfl, rfl, rfl, rfl⟩
  have hsend : SameSendSide s (ageBuckets (s.takeRx rx)) := ⟨rfl, rfl, rfl, rfl, rfl⟩
  obtain ⟨hsetU, hsendU, -⟩ := discObserve_frame hu
  obtain ⟨hsetW, hsendW, hstateW, -⟩ := deframe_frame hw
  refine ⟨w, t, (hset.trans hsetU).trans hsetW, (hsend.trans hsendU).trans hsendW, fun hpending => ?_, hout,
    exec_tick_of_ok htick⟩
  have hidle := discObserve_idle (s := ageBuckets (s.takeRx rx)) rx (by simp [hsend.discPending, hpending])
  cases hu.symm.trans hidle
  exact hstateW

/-- R185, with no request pending. -/
theorem outgoing_message {s : State} {m : List Byte} {rest : List (List Byte)} (hsent : s.discPending = false)
    (hq : s.txq = m :: rest) :
    outgoing s = .ok ((s.setTxq rest).drawn.emitTx ((fragments s.dstAddr s.nextId m).map wireOf)) := by
  unfold outgoing
  rw [sendRequest_eq, hsent]
  exact sendHead_cons hq

/-- The state after the pending request has gone out (R184, R190). -/
def State.requestSent (s : State) : State :=
  (s.drawn.emitTx [wireOf (discRequest s.dstAddr s.nextId)]).setDiscRequest false 0#32

/-- R184: a pending request goes first. -/
theorem outgoing_pending {s : State} (h : s.discPending = true) : outgoing s = sendHead s.requestSent := by
  unfold outgoing
  rw [sendRequest_eq, if_pos h]
  rfl

/-- Sending the head message from `s` puts `frames` on `tx_raw` and ends in `t` (R184, R185). -/
structure HeadSent (s : State) (frames : List (List Byte)) (t : State) : Prop where
  txRaw       : t.txRaw = s.txRaw ++ frames
  txq         : t.txq = s.txq.tail
  nothing     : s.txq = [] → frames = []
  message     : ∀ m rest, s.txq = m :: rest → encodeAll (fragments s.dstAddr s.nextId m) = .ok frames
  discPending : t.discPending = s.discPending
  discWait    : t.discWait = s.discWait
  discState   : t.discState = s.discState

theorem headSent_of_sendHead {s t : State} (h : sendHead s = .ok t) : ∃ frames, HeadSent s frames t := by
  obtain ⟨hq, rfl⟩ | ⟨m, rest, hq, rfl⟩ := sendHead_cases h
  · refine ⟨[], by simp, by simp [hq], fun _ => rfl, fun m rest hm => ?_, rfl, rfl, rfl⟩
    cases hq.symm.trans hm
  · refine ⟨_, rfl, by rw [hq]; rfl, fun hnil => ?_, fun m' rest' hm => ?_, rfl, rfl, rfl⟩
    · cases hq.symm.trans hnil
    · cases hq.symm.trans hm
      exact encodeAll_ok fragments_fit

/-- Settles O38: with an empty queue the outgoing phase is idle; otherwise it emits the encoded fragments, and what is
received of them is `receivedFrame` of each. -/
theorem tickSendsHeadMessage : Obligations.TickSendsHeadMessage := by
  refine ⟨fun s rx hen hsent hq => ?idle, fun s rx m rest hen hsent hq hlen => ?message⟩
  case idle =>
    obtain ⟨w, t, hset, hsend, -, hout, hexec⟩ := tick_outgoing rx hen
    cases hout.symm.trans (outgoing_idle (hsend.discPending.trans hsent) (hsend.txq.trans hq))
    exact ⟨w, hexec, hsend.txRaw, hsend.txq.trans hq, hsend.discPending.trans hsent, hsend.frameIdRand,
      hsend.draws, hset⟩
  case message =>
    obtain ⟨w, t, hset, hsend, -, hout, hexec⟩ := tick_outgoing rx hen
    have hmessage := outgoing_message (hsend.discPending.trans hsent) (hsend.txq.trans hq)
    rw [hset.dstAddr, hsend.nextId] at hmessage
    cases hout.symm.trans hmessage
    refine ⟨_, (fragments s.dstAddr s.nextId m).map wireOf, (fragments s.dstAddr s.nextId m).map receivedFrame, hexec,
      rfl, congrArg (· ++ _) hsend.txRaw, congrArg List.tail hsend.frameIdRand, ?settings, ?count, by simp,
      fun i b f hb hf => ?frame, flatMap_received_take _ _ m⟩
    case count => rw [List.length_map, fragments_length, fragmentCount, Config.payloadLen]
    case settings => exact hset.trans (outgoing_frame hout).1
    case frame =>
      rw [List.getElem?_map, Option.map_eq_some_iff] at hb hf
      obtain ⟨g, hg, rfl⟩ := hb
      obtain ⟨g', hg', rfl⟩ := hf
      cases hg.symm.trans hg'
      obtain ⟨hi, rfl⟩ := eq_fragment_of_getElem? hg
      obtain ⟨horder, htotal⟩ := fragment_numbers s.dstAddr s.nextId hlen hi
      have hfits := messageSlice_length m i
      refine ⟨decode_wireOf hfits, isValid_receivedFrame hfits, rfl, rfl, rfl, rfl, horder, ?_, ?_⟩
      · rw [List.length_map, fragments_length]
        exact htotal
      · exact congrArg padded (messageSlice_eq m i)

/-- Settles O39: the request is sent under the first draw (`outgoing_pending`), the head message from the state it
leaves (`HeadSent`). -/
theorem pendingRequestGoesFirst : Obligations.PendingRequestGoesFirst := by
  intro s rx hen hpending
  obtain ⟨w, t, hset, hsend, hstate, hout, hexec⟩ := tick_outgoing rx hen
  rw [outgoing_pending (hsend.discPending.trans hpending)] at hout
  obtain ⟨more, hhead⟩ := headSent_of_sendHead hout
  have hqueue : w.requestSent.txq = s.txq := hsend.txq
  have hdst : w.requestSent.dstAddr = s.dstAddr := hset.dstAddr
  have hnext : w.requestSent.nextId = s.drawn.nextId := hsend.drawn.nextId
  have hemitted : w.requestSent.txRaw = s.txRaw ++ [wireOf (discRequest s.dstAddr s.nextId)] := by
    rw [← hset.dstAddr, ← hsend.nextId, ← hsend.txRaw]
    rfl
  have hfits : (discRequest s.dstAddr s.nextId).payload.length ≤ 50 := Nat.zero_le 50
  refine ⟨t, wireOf (discRequest s.dstAddr s.nextId), receivedFrame (discRequest s.dstAddr s.nextId), more, hexec, ?raw,
    hhead.txq.trans (congrArg List.tail hqueue), fun hq => hhead.nothing (hqueue.trans hq), fun m rest hq => ?message,
    ?settings, decode_wireOf hfits, isValid_receivedFrame hfits, rfl, rfl, rfl, rfl, rfl, rfl, rfl, hhead.discPending,
    hhead.discWait, hhead.discState.trans (hstate hpending)⟩
  case raw => rw [hhead.txRaw, hemitted, List.append_assoc, List.singleton_append]
  case message =>
    rw [← hdst, ← hnext]
    exact hhead.message m rest (hqueue.trans hq)
  case settings => exact tick_settings (outcome_eq_next.mp hexec)

end Sys2Proof.Machine
end

section
/-! PROOFS. The control interface (spec/45_control.md): register reads (R200), the commands (R211 to R217) and register
writes (R201 to R207). -/

namespace Sys2Proof.Machine

/-! ### Register reads -/

/-- The register at an offset given by its number (R51). -/
theorem readReg_of_toNat {off : Offset} {s : State} {x : Word} (k : Offset) (h : off.toNat = k.toNat)
    (hx : readReg k s = x) : readReg off s = x := by
  obtain rfl := BitVec.eq_of_toNat_eq h
  exact hx

/-- R40: the fields of CONFIG are adjacent, so the word is their sum by weight. -/
theorem configWord_toNat (p : Config.Params) :
    (configWord p).toNat = p.nb.toNat + 256 * p.maxFrag.toNat + 65536 * p.txqMax.toNat := by
  obtain ⟨hnb, hmax, htxq⟩ := configWord_fields p
  have hlow := congrArg BitVec.toNat hnb
  have hmid := congrArg BitVec.toNat hmax
  have hhigh := congrArg BitVec.toNat htxq
  simp only [BitVec.extractLsb'_toNat, Nat.shiftRight_eq_div_pow] at hlow hmid hhigh
  have hlt := (configWord p).isLt
  omega

/-- Settles O40: a read answers `readReg`, which is 0 outside the registers and the window, and in the window byte `j`
of the word is byte `j` after the index (`getLe32_byte`). -/
theorem regReadAnswersItsRegister : Obligations.RegReadAnswersItsRegister := by
  intro off s
  refine ⟨readReg off s, exec_regRead rfl, fun hmis => ?misaligned, ?cmd, ?status, fun h => ?addr, ?crcResult, ?bucketTtl,
    ?discTimeout, ?lastSeq, ?lastLen, fun h => ?config, fun hal hlo hhi => ?reserved, fun hal hwin j hj => ?window⟩
  case misaligned => exact readReg_misaligned s (mt (aligned_iff off).mp hmis)
  case cmd => exact fun h => readReg_of_toNat 0x0000#15 h rfl
  case status => exact fun h => readReg_of_toNat 0x0004#15 h rfl
  case addr =>
    have hread : readReg off s = s.dstAddr.setWidth 32 := readReg_of_toNat 0x0008#15 h rfl
    rw [hread, BitVec.toNat_setWidth_of_le (by decide)]
  case crcResult => exact fun h => readReg_of_toNat 0x000C#15 h rfl
  case bucketTtl => exact fun h => readReg_of_toNat 0x0010#15 h rfl
  case discTimeout => exact fun h => readReg_of_toNat 0x0014#15 h rfl
  case lastSeq => exact fun h => readReg_of_toNat 0x0018#15 h rfl
  case lastLen => exact fun h => readReg_of_toNat 0x001C#15 h rfl
  case config =>
    have hread : readReg off s = configWord s.cfg := readReg_of_toNat 0x0020#15 h rfl
    rw [hread, configWord_toNat]
  case reserved => exact readReg_reserved s ((reserved_iff off).mpr ⟨hal, hlo, hhi⟩)
  case window =>
    rw [readReg_window s ((aligned_iff off).mpr hal) hwin]
    exact getLe32_byte s.lastMsg (off.toNat - 0x4000) hj

/-! ### Commands -/

section

variable (opc arg : Byte) (hi : Half) (v : Word) (s : State)

theorem exec_nop : exec (.nop arg hi) s = .next s := rfl

theorem exec_start : exec (.start arg hi) s = .next (s.setEn true) := rfl

theorem exec_stop : exec (.stop arg hi) s = .next (s.setEn false) := rfl

theorem exec_softReset : exec (.softReset arg hi) s = .next s.softReset := rfl

theorem exec_discStart : exec (.discStart arg hi) s = .next s.discStart := rfl

theorem exec_cmdReserved : exec (.cmdReserved opc arg hi) s = .next (s.setCmdErr true) := rfl

theorem exec_wrCmd : exec (.wrCmd v) s = .next (command v s) := rfl

end

/-- R215: as many slots as before, each of them free. -/
theorem softReset_eq (s : State) : s.softReset = { s with
    txq := [], slots := List.replicate s.slots.length none, lastMsg := [], lastSeq := 0#32,
    discState := .idle, discPending := false, discWait := 0#32, cmdErr := false } := by
  rw [← List.map_const']
  rfl

/-- Settles O47: each command row runs its named update of the state; SOFT_RESET's is written out by `softReset_eq`. -/
theorem commandsHaveTheirEffect : Obligations.CommandsHaveTheirEffect := by
  intro opc arg hi s
  refine ⟨exec_nop arg hi s, exec_start arg hi s, exec_stop arg hi s, ?_, exec_discStart arg hi s,
    exec_cmdReserved opc arg hi s⟩
  rw [exec_softReset, softReset_eq]

/-- Settles O48: the seven tests of the opcode in `command` are tests of the word modulo 256 (`cmdOpc_eq_iff`), and each
branch is the update its command row runs. -/
theorem writeToCmdDispatchesByOpcode : Obligations.WriteToCmdDispatchesByOpcode := by
  intro v s
  have hopc : ∀ k < 256, (cmdOpc v = BitVec.ofNat 8 k) = (v.toNat % 256 = k) := fun k hk => propext (cmdOpc_eq_iff hk)
  rw [exec_wrCmd, exec_softReset, exec_discStart, command]
  simp only [hopc, Nat.reduceLT, apply_ite Host.Outcome.next]
  rfl

/-! ### Register writes -/

/-- A write to the register at an offset given by its number (R51). -/
theorem exec_regWrite_of_toNat {off : Offset} {v : Word} {s t : State} (k : Offset) (h : off.toNat = k.toNat)
    (ht : writeReg k v s = t) : exec (.regWrite off v) s = .next t := by
  obtain rfl := BitVec.eq_of_toNat_eq h
  exact exec_regWrite ht

/-- Settles O45: the five writable offsets each have their branch of `writeReg`, every other one falls through them all
(`writeReg_ignored`). -/
theorem regWriteActsByItsOffset : Obligations.RegWriteActsByItsOffset := by
  intro off v s
  refine ⟨fun h => ?cmd, fun h => ?status, fun h => ?addr, fun h => ?bucketTtl, fun h => ?discTimeout,
    fun h0 h1 h2 h3 h4 => ?ignored⟩
  case cmd => exact exec_regWrite_of_toNat 0x0000#15 h rfl
  case status => exact exec_regWrite_of_toNat 0x0004#15 h (writeStatus_eq v s)
  case addr => exact exec_regWrite_of_toNat 0x0008#15 h rfl
  case bucketTtl => exact exec_regWrite_of_toNat 0x0010#15 h rfl
  case discTimeout => exact exec_regWrite_of_toNat 0x0014#15 h rfl
  case ignored =>
    have hne : ∀ k : Offset, off.toNat ≠ k.toNat → off ≠ k := fun k => mt (congrArg BitVec.toNat)
    exact exec_regWrite (writeReg_ignored v s (hne _ h0) (hne _ h1) (hne _ h2) (hne _ h3) (hne _ h4))

/-! ### The write rows -/

section

variable (off : Offset) (v : Word) (s : State)

/-- R203. -/
theorem exec_wrStatus : exec (.wrStatus v) s = .next { s with cmdErr := s.cmdErr && !v.getLsbD 1 } := by
  rw [← writeStatus_eq]
  rfl

theorem exec_wrAddr : exec (.wrAddr v) s = .next (s.setDstAddr (v.extractLsb' 0 8)) := rfl

theorem exec_wrBucketTtl : exec (.wrBucketTtl v) s = .next (s.setBucketTtl v) := rfl

theorem exec_wrDiscTimeout : exec (.wrDiscTimeout v) s = .next (s.setDiscTimeout v) := rfl

/-- R55: the read-only registers ignore a write. -/
theorem exec_write_readOnly : exec (.wrCrcResult v) s = .next s ∧ exec (.wrLastSeq v) s = .next s ∧
    exec (.wrLastLen v) s = .next s ∧ exec (.wrConfig v) s = .next s := ⟨rfl, rfl, rfl, rfl⟩

/-- R52 to R54: so do the window, the misaligned and the reserved offsets. -/
theorem exec_write_noRegister : exec (.wrLastData off v) s = .next s ∧ exec (.wrMisaligned off v) s = .next s ∧
    exec (.wrReserved off v) s = .next s := ⟨rfl, rfl, rfl⟩

end

/-- Settles O46: four rows write their register, the seven others leave the state as it is. -/
theorem writeRowsWriteTheirRegister : Obligations.WriteRowsWriteTheirRegister := by
  intro v off s
  obtain ⟨hcrc, hseq, hlen, hconfig⟩ := exec_write_readOnly v s
  exact ⟨exec_wrStatus v s, exec_wrAddr v s, exec_wrBucketTtl v s, exec_wrDiscTimeout v s, hcrc, hseq, hlen, hconfig,
    exec_write_noRegister off v s⟩

end Sys2Proof.Machine
end

section
/-! PROOFS. Decoder and encoder are inverse to each other (spec/30_encoding.md, spec/20_memory.md). -/

namespace Sys2Proof

/-! ### Decoding what was encoded -/

/-- R77: an opcode from 0x07 up is none of the seven commands. -/
theorem decodeCmd_reserved {v : Word} (h : 7 ≤ (cmdOpc v).toNat) :
    decodeCmd v = .cmdReserved (cmdOpc v) (cmdArg v) (cmdHi v) := by
  have hne : ∀ k : Byte, k.toNat < 7 → cmdOpc v ≠ k := by
    rintro k hk rfl
    omega
  unfold decodeCmd
  rw [if_neg (hne _ (by decide)), if_neg (hne _ (by decide)), if_neg (hne _ (by decide)), if_neg (hne _ (by decide)),
    if_neg (hne _ (by decide)), if_neg (hne _ (by decide)), if_neg (hne _ (by decide))]

/-- An encoded command decodes to the command that its three fields name (R76). -/
theorem decode_encodeCmd_eq {opc arg : Byte} {hi : Half} {i : Instr} (h : decodeCmd (cmdWord opc arg hi) = i) :
    decode (encodeCmd opc arg hi) = .ok i := by
  rw [decode_encodeCmd, h]

theorem decode_encodeRead_eq {off : Offset} {i : Instr} (h : decodeRead off = i) : decode (encodeRead off) = .ok i := by
  rw [decode_encodeRead, h]

theorem decode_encodeWrite_eq {off : Offset} {v : Word} {i : Instr} (h : decodeWrite off v = i) :
    decode (encodeWrite off v) = .ok i := by
  rw [decode_encodeWrite, h]

/-- A whole frame decodes to the row of its preamble (R72). -/
theorem decode_frame_eq {f : Frame} {i : Instr} (hpay : f.onWire = true) (h : frameRow f = i) :
    decode ⟨.frame, f.toWire⟩ = .ok i := by
  rw [decode_frameTransfer (by simpa [Frame.onWire, Config.payloadLen] using hpay), h]

/-- R72: a preamble that is none of the three is reserved. -/
theorem frameRow_reserved {f : Frame} (h1 : f.preamble ≠ Config.preData) (h2 : f.preamble ≠ Config.preDiscReq)
    (h3 : f.preamble ≠ Config.preDiscRsp) : frameRow f = .frameReserved f := by
  unfold frameRow
  rw [if_neg h1, if_neg h2, if_neg h3]

theorem decode_encode_regRead (off : Offset) : decode (encode (.regRead off)) = .ok (.regRead off) := by
  simp [decode, encode, decodeEvent, getLe16_le16_self]

theorem decode_encode_regWrite (off : Offset) (v : Word) :
    decode (encode (.regWrite off v)) = .ok (.regWrite off v) := by
  simp [decode, encode, decodeEvent, getLe16_le16, getLe32_after_le16]

/-- Settles O1: one case a row; the decoder tests the fields in the order that makes the row's own test the first to
hold. -/
theorem decodeOfEncodeIsIdentity : Obligations.DecodeOfEncodeIsIdentity := by
  intro i hwf
  cases i with
  | reset | tick | submit => rfl
  | regRead off => exact decode_encode_regRead off
  | regWrite off v => exact decode_encode_regWrite off v
  | nop arg hi | crcInit arg hi | crcByte arg hi | start arg hi | stop arg hi | softReset arg hi | discStart arg hi =>
    exact decode_encodeCmd_eq (by simp [decodeCmd])
  | cmdReserved opc arg hi =>
    have hopc : 7 ≤ (cmdOpc (cmdWord opc arg hi)).toNat := by simpa [Instr.wellFormed] using hwf
    exact decode_encodeCmd_eq (by simpa using decodeCmd_reserved hopc)
  | rdCmd | rdStatus | rdAddr | rdCrcResult | rdBucketTtl | rdDiscTimeout | rdLastSeq | rdLastLen | rdConfig =>
    exact decode_encodeRead_eq rfl
  | wrCmd | wrStatus | wrAddr | wrCrcResult | wrBucketTtl | wrDiscTimeout | wrLastSeq | wrLastLen | wrConfig =>
    exact decode_encodeWrite_eq rfl
  | rdLastData off =>
    obtain ⟨ha, hw⟩ : off.aligned = true ∧ off.inWindow = true := by simpa [Instr.wellFormed] using hwf
    exact decode_encodeRead_eq (decodeRead_window (by simpa [Offset.aligned] using ha) hw)
  | wrLastData off v =>
    obtain ⟨ha, hw⟩ : off.aligned = true ∧ off.inWindow = true := by simpa [Instr.wellFormed] using hwf
    exact decode_encodeWrite_eq (decodeWrite_window (by simpa [Offset.aligned] using ha) hw v)
  | rdMisaligned off =>
    exact decode_encodeRead_eq (decodeRead_misaligned (by simpa [Instr.wellFormed, Offset.aligned] using hwf))
  | wrMisaligned off v =>
    exact decode_encodeWrite_eq (decodeWrite_misaligned (by simpa [Instr.wellFormed, Offset.aligned] using hwf) v)
  | rdReserved off => exact decode_encodeRead_eq (decodeRead_reserved hwf)
  | wrReserved off v => exact decode_encodeWrite_eq (decodeWrite_reserved hwf v)
  | frameData f | frameDiscReq f | frameDiscRsp f =>
    obtain ⟨hpay, hpre⟩ := Bool.and_eq_true_iff.mp hwf
    rw [beq_iff_eq] at hpre
    exact decode_frame_eq hpay (by rw [frameRow, hpre]; rfl)
  | frameReserved f =>
    simp only [Instr.wellFormed, Bool.and_eq_true, bne_iff_ne] at hwf
    obtain ⟨⟨⟨hpay, h1⟩, h2⟩, h3⟩ := hwf
    exact decode_frame_eq hpay (frameRow_reserved h1 h2 h3)

/-! ### Encoding what was decoded -/

/-- The instruction is a row of the table, and the transfer is its encoding. -/
def Encodes (i : Instr) (t : Transfer) : Prop := i.wellFormed = true ∧ encode i = t

theorem decodeCmd_encodes (v : Word) : Encodes (decodeCmd v) ⟨.cmd, le32 v⟩ := by
  have hword : ∀ k, cmdOpc v = k → encodeCmd k (cmdArg v) (cmdHi v) = ⟨.cmd, le32 v⟩ := by
    rintro k rfl
    rw [encodeCmd, cmdWord_eta]
  by_cases h : 7 ≤ (cmdOpc v).toNat
  · rw [decodeCmd_reserved h]
    exact ⟨decide_eq_true h, hword _ rfl⟩
  · unfold decodeCmd
    split_ifs with h0 h1 h2 h3 h4 h5 h6
    · exact ⟨rfl, hword _ h0⟩
    · exact ⟨rfl, hword _ h1⟩
    · exact ⟨rfl, hword _ h2⟩
    · exact ⟨rfl, hword _ h3⟩
    · exact ⟨rfl, hword _ h4⟩
    · exact ⟨rfl, hword _ h5⟩
    · exact ⟨rfl, hword _ h6⟩
    · bv_omega

/-- R79: whatever the class of the offset, the row read from it is written back with it. -/
theorem decodeRead_encodes (off : Offset) : Encodes (decodeRead off) (encodeRead off) := by
  rcases offset_cases off with h | ⟨ha, hw⟩ | h | h
  · rw [decodeRead_misaligned h]
    exact ⟨by simpa [Instr.wellFormed, Offset.aligned] using h, rfl⟩
  · rw [decodeRead_window ha hw]
    exact ⟨by simp [Instr.wellFormed, Offset.aligned, Offset.inWindow, ha, hw], rfl⟩
  · simp only [List.mem_cons, List.not_mem_nil, or_false] at h
    rcases h with rfl | rfl | rfl | rfl | rfl | rfl | rfl | rfl | rfl <;> exact ⟨rfl, rfl⟩
  · rw [decodeRead_reserved h]
    exact ⟨h, rfl⟩

theorem decodeWrite_encodes (off : Offset) (v : Word) : Encodes (decodeWrite off v) (encodeWrite off v) := by
  rcases offset_cases off with h | ⟨ha, hw⟩ | h | h
  · rw [decodeWrite_misaligned h]
    exact ⟨by simpa [Instr.wellFormed, Offset.aligned] using h, rfl⟩
  · rw [decodeWrite_window ha hw]
    exact ⟨by simp [Instr.wellFormed, Offset.aligned, Offset.inWindow, ha, hw], rfl⟩
  · simp only [List.mem_cons, List.not_mem_nil, or_false] at h
    rcases h with rfl | rfl | rfl | rfl | rfl | rfl | rfl | rfl | rfl <;> exact ⟨rfl, rfl⟩
  · rw [decodeWrite_reserved h]
    exact ⟨h, rfl⟩

theorem frameRow_encodes {f : Frame} (hpay : f.payload.length = 50) : Encodes (frameRow f) ⟨.frame, f.toWire⟩ := by
  have hwire : f.onWire = true := beq_iff_eq.mpr hpay
  unfold frameRow
  split_ifs with h1 h2 h3
  · exact ⟨by simp [Instr.wellFormed, hwire, h1], rfl⟩
  · exact ⟨by simp [Instr.wellFormed, hwire, h2], rfl⟩
  · exact ⟨by simp [Instr.wellFormed, hwire, h3], rfl⟩
  · exact ⟨by simp [Instr.wellFormed, hwire, h1, h2, h3], rfl⟩

/-- Two bytes are the half word read from them. -/
theorem eq_le16_of_length {b : List Byte} (h : b.length = 2) : b = le16 (getLe16 b 0) := by
  obtain ⟨x, y, rfl⟩ := List.length_eq_two.mp h
  exact (le16_getLe16 [x, y] 0).symm

theorem eq_le32_of_length {b : List Byte} (h : b.length = 4) : b = le32 (getLe32 b 0) := by
  refine ext_byteAt (by simp [h]) fun i hi => ?_
  rw [le32_getLe32]
  rw [h] at hi
  interval_cases i <;> rfl

/-- Six bytes are the half word and the word read from them. -/
theorem eq_le16_le32_of_length {b : List Byte} (h : b.length = 6) : b = le16 (getLe16 b 0) ++ le32 (getLe32 b 2) := by
  refine ext_byteAt (by simp [h]) fun i hi => ?_
  rw [le16_getLe16, le32_getLe32]
  rw [h] at hi
  interval_cases i <;> rfl

/-- The key of an access whose direction bit is known (R79). -/
theorem key_eq_regKey {key : Half} {dir : Bool} (h : keyDir key = dir) : key = regKey dir (keyOff key) := by
  rw [← h, regKey_eta]

theorem decodeEvent_encodes {b : List Byte} {i : Instr} (h : decodeEvent b = .ok i) : Encodes i ⟨.event, b⟩ := by
  rcases b with _ | ⟨tag, ops⟩
  · cases h
  · rw [decodeEvent] at h
    split_ifs at h with h0 hlen h1 h2 h3 hlen hdir h4 hlen hdir h5
    · cases h
      rw [h0, List.eq_nil_of_length_eq_zero hlen]
      exact ⟨rfl, rfl⟩
    · cases h
      exact ⟨rfl, by rw [h1, encode]⟩
    · cases h
      exact ⟨rfl, by rw [h2, encode]⟩
    · cases h
      refine ⟨rfl, ?_⟩
      rw [h3, encode, ← key_eq_regKey (Bool.eq_false_iff.mpr hdir), ← eq_le16_of_length (not_not.mp hlen)]
    · cases h
      refine ⟨rfl, ?_⟩
      rw [h4, encode, ← key_eq_regKey (Bool.eq_false_iff.mpr hdir), ← eq_le16_le32_of_length (not_not.mp hlen)]

theorem decodeReg_encodes {b : List Byte} {i : Instr} (h : decodeReg b = .ok i) : Encodes i ⟨.reg, b⟩ := by
  unfold decodeReg at h
  split_ifs at h with hlen hdir hlen hdir
  · cases h
    have hb : encodeRead (keyOff (getLe16 b 0)) = ⟨.reg, b⟩ := by
      rw [encodeRead, ← key_eq_regKey (Bool.eq_false_iff.mpr hdir), ← eq_le16_of_length hlen]
    exact hb ▸ decodeRead_encodes _
  · cases h
    have hb : encodeWrite (keyOff (getLe16 b 0)) (getLe32 b 2) = ⟨.reg, b⟩ := by
      rw [encodeWrite, ← key_eq_regKey hdir, ← eq_le16_le32_of_length hlen]
    exact hb ▸ decodeWrite_encodes _ _

/-- Settles O2: one lemma a format; each takes the transfer apart into the fields that the encoder puts together. -/
theorem encodeOfDecodeIsIdentity : Obligations.EncodeOfDecodeIsIdentity := by
  rintro ⟨fmt, b⟩ i h
  cases fmt with
  | event => exact decodeEvent_encodes h
  | cmd =>
    simp only [decode] at h
    split_ifs at h with hlen
    cases h
    rw [eq_le32_of_length hlen, getLe32_le32_self]
    exact decodeCmd_encodes _
  | reg => exact decodeReg_encodes h
  | frame =>
    cases hdec : Frame.decode b with
    | error e =>
      simp only [decode, hdec] at h
      cases h
    | ok f =>
      simp only [decode, hdec] at h
      cases h
      obtain ⟨hwire, -, hpay⟩ := toWire_of_decode hdec
      exact hwire ▸ frameRow_encodes hpay

/-- Settles O3: each transfer is one literal, and the decoder computes on it. -/
theorem specWordsDecode : Obligations.SpecWordsDecode :=
  ⟨rfl, rfl, rfl, rfl, rfl, rfl, rfl, rfl, rfl, rfl⟩

end Sys2Proof
end

section
/-! PROOFS. The events (spec/30_encoding.md R80, spec/60_exceptions.md R230): what a step runs, and everything an
instruction can do to a state. -/

namespace Sys2Proof.Machine

/-! ### The step -/

/-- Settles O6: `popInput` takes the head of the input off, and `step` runs the instruction it was. -/
theorem stepRunsDecodedEvent : Obligations.StepRunsDecodedEvent := by
  intro s t rest i hin hdec
  simp only [step, State.popInput, hin, hdec, List.tail_cons]

theorem step_of_no_input {s : State} (h : s.input = []) : step s = .next s := by
  simp only [step, h]

theorem step_of_decode_error {s : State} {t : Transfer} {rest : List Transfer} {e : DecodeError}
    (hin : s.input = t :: rest) (hdec : decode t = .error e) : step s = rejectTransfer e := by
  simp only [step, hin, hdec]

/-- I22: the tags that name no event. -/
theorem decodeEvent_noEvent {tag : Byte} (ops : List Byte) (hlow : 5 ≤ tag.toNat) (hhigh : tag.toNat < 16) :
    decodeEvent (tag :: ops) = .error (.noEvent tag) := by
  have hne : ∀ k : Byte, k.toNat < 5 → tag ≠ k := by
    rintro k hk rfl
    omega
  rw [decodeEvent, if_neg (hne _ (by decide)), if_neg (hne _ (by decide)), if_neg (hne _ (by decide)),
    if_neg (hne _ (by decide)), if_neg (hne _ (by decide)), if_pos hhigh]

/-- Settles O7: with no event offered `step` stays; a transfer that does not decode ends in `rejectTransfer`. -/
theorem stepWithoutAnEvent : Obligations.StepWithoutAnEvent := by
  refine ⟨fun s => step_of_no_input, fun s tag ops rest hin hlow hhigh => ?stuck,
    fun s t rest e hin hdec he => ?refused⟩
  case stuck => exact step_of_decode_error hin (decodeEvent_noEvent ops hlow hhigh)
  case refused =>
    rw [step_of_decode_error hin hdec]
    cases e with
    | noEvent tag => exact absurd rfl (he tag)
    | _ => rfl

/-- Settles O8: row by row (`exec_eq_exec_toEvent`). -/
theorem everyRowActsAsItsEvent : Obligations.EveryRowActsAsItsEvent := fun _ s hwf => exec_eq_exec_toEvent s hwf

/-! ### Everything an instruction can do -/

/-- The states an instruction can lead to from `s`, well-formed or not. An ill-formed one sets `cmd_err`, answers some
value or does nothing. -/
inductive Effect (i : Instr) (s : State) : State → Prop
  | reset (h : i = .reset) : Effect i s s.hardReset
  | tick (rx : List Byte) (t : State) (h : i.toEvent = .tick rx) (ht : tick rx s = .ok t) : Effect i s t
  | submit (m : List Byte) : Effect i s ((submit m s).answer (.status (submitStatus m s)))
  | read (x : Word) : Effect i s (s.answer (.value x))
  | write (off : Offset) (v : Word) (h : i.toEvent = .regWrite off v) : Effect i s (writeReg off v s)
  | badOpcode : Effect i s (s.setCmdErr true)
  | ignored : Effect i s s

/-- A row that stands for a register write has that write's effect (`exec_eq_exec_toEvent`). -/
theorem effect_of_write {i : Instr} {s t : State} {off : Offset} {v : Word} (hwf : i.wellFormed = true)
    (he : i.toEvent = .regWrite off v) (h : exec i s = .next t) : Effect i s t := by
  rw [exec_eq_exec_toEvent s hwf, he] at h
  cases h
  exact .write _ _ he

theorem exec_effect {i : Instr} {s t : State} (h : exec i s = .next t) : Effect i s t := by
  cases i with
  | reset =>
    cases h
    exact .reset rfl
  | tick rx => exact .tick rx t rfl (outcome_eq_next.mp h)
  | frameData f | frameDiscReq f | frameDiscRsp f | frameReserved f =>
    exact .tick f.toWire t rfl (outcome_eq_next.mp h)
  | submit m =>
    cases h
    exact .submit m
  | nop | crcInit | crcByte | start | stop | softReset | discStart => exact effect_of_write rfl rfl h
  | regWrite | wrCmd | wrStatus | wrAddr | wrBucketTtl | wrDiscTimeout => exact effect_of_write rfl rfl h
  | cmdReserved =>
    cases h
    exact .badOpcode
  | regRead | rdCmd | rdStatus | rdAddr | rdCrcResult | rdBucketTtl | rdDiscTimeout | rdLastSeq | rdLastLen | rdConfig
  | rdLastData | rdMisaligned | rdReserved =>
    cases h
    exact .read _
  | wrCrcResult | wrLastSeq | wrLastLen | wrConfig | wrLastData | wrMisaligned | wrReserved =>
    cases h
    exact .ignored

/-- No instruction faults and none is refused: the TICK is the only one that could (`tick_total`). -/
theorem exec_total (i : Instr) (s : State) : ∃ t, exec i s = .next t := by
  have htick : ∀ rx, ∃ t, outcome (tick rx s) = .next t := fun rx =>
    (tick_total rx s).imp fun _ => outcome_eq_next.mpr
  cases i with
  | tick rx => exact htick rx
  | frameData f | frameDiscReq f | frameDiscRsp f | frameReserved f => exact htick f.toWire
  | _ => exact ⟨_, rfl⟩

/-- The parts of the state a register write never touches (R201, R211): parameters, input and the ports. -/
structure SamePorts (s t : State) : Prop where
  cfg     : t.cfg = s.cfg
  input   : t.input = s.input
  txRaw   : t.txRaw = s.txRaw
  msgRx   : t.msgRx = s.msgRx
  rxRaw   : t.rxRaw = s.rxRaw
  replies : t.replies = s.replies

theorem command_samePorts (v : Word) (s : State) : SamePorts s (command v s) := by
  rcases command_cases v s with ⟨-, e⟩ | ⟨-, e⟩ | ⟨-, e⟩ | ⟨-, e⟩ | ⟨-, e⟩ | ⟨-, e⟩ | ⟨-, e⟩ | ⟨-, e⟩ <;>
    (rw [e]; exact ⟨rfl, rfl, rfl, rfl, rfl, rfl⟩)

theorem writeReg_samePorts (off : Offset) (v : Word) (s : State) : SamePorts s (writeReg off v s) := by
  rcases writeReg_cases off v s with ⟨-, e⟩ | ⟨-, e⟩ | ⟨-, e⟩ | ⟨-, e⟩ | ⟨-, e⟩ | ⟨-, -, -, -, -, e⟩
  · exact e ▸ command_samePorts v s
  · rw [e, writeStatus_eq]
    exact ⟨rfl, rfl, rfl, rfl, rfl, rfl⟩
  all_goals
    rw [e]
    exact ⟨rfl, rfl, rfl, rfl, rfl, rfl⟩

/-- A submission moves the queue alone (R180). -/
theorem submit_eq_setTxq (m : List Byte) (s : State) : ∃ q, submit m s = s.setTxq q := by
  rcases submit_cases m s with ⟨-, e⟩ | ⟨-, e⟩
  · exact ⟨_, e⟩
  · exact ⟨s.txq, e⟩

theorem Effect.cfg_input {i : Instr} {s t : State} (h : Effect i s t) : t.cfg = s.cfg ∧ t.input = s.input := by
  cases h with
  | tick rx _ _ ht => exact ⟨(tick_settings ht).cfg, (tick_settings ht).input⟩
  | submit m =>
    obtain ⟨q, e⟩ := submit_eq_setTxq m s
    rw [e]
    exact ⟨rfl, rfl⟩
  | write off v _ => exact ⟨(writeReg_samePorts off v s).cfg, (writeReg_samePorts off v s).input⟩
  | reset | read | badOpcode | ignored => exact ⟨rfl, rfl⟩

/-- Settles O9: an event completes (`exec_total`), and none of its effects touches the parameters or the input. -/
theorem everyEventCompletes : Obligations.EveryEventCompletes := by
  intro i s
  obtain ⟨t, h⟩ := exec_total i s
  exact ⟨t, h, (exec_effect h).cfg_input⟩

/-- What a step that goes on has done: nothing, or one instruction. -/
theorem step_cases {s t : State} (h : step s = .next t) : t = s ∨ ∃ i, exec i s.popInput = .next t := by
  unfold step at h
  split at h
  · cases h
    exact .inl rfl
  · split at h
    · exact .inr ⟨_, h⟩
    · rename_i e _
      cases e <;> cases h

/-- R233: `step` faults on the tags of I22 only. -/
theorem step_ne_encOversize (s : State) : step s ≠ .fault .encOversize := by
  intro h
  unfold step at h
  split at h
  · cases h
  · split at h
    · rename_i i _
      obtain ⟨t, ht⟩ := exec_total i s.popInput
      cases ht.symm.trans h
    · rename_i e _
      cases e <;> cases h

/-! ### Several engines -/

/-- Settles O56: a step of an engine replaces it in the list by its own next state. -/
theorem instancesShareNothing : Obligations.InstancesShareNothing := by
  intro k engines after h
  unfold stepInstance at h
  split at h
  · rename_i hk
    cases h
    exact ⟨rfl, fun _ _ => rfl, fun s hs => by cases hk.symm.trans hs⟩
  · rename_i s hk
    split at h
    · rename_i t ht
      cases h
      refine ⟨List.length_set, fun j hj => List.getElem?_set_ne hj.symm, fun s' hs' => ?_⟩
      cases hk.symm.trans hs'
      exact ⟨t, ht, List.getElem?_set_self (List.getElem?_eq_some_iff.mp hk).1⟩
    · cases h
    · cases h

/-! ### The run flag and the settings -/

/-- R213 and R214: START sets the run flag, STOP clears it, no other command touches it. -/
theorem command_en (v : Word) (s : State) :
    (command v s).en = s.en ∨ (cmdOpc v = 0x03#8 ∧ (command v s).en = true) ∨
      (cmdOpc v = 0x04#8 ∧ (command v s).en = false) := by
  rcases command_cases v s with ⟨-, e⟩ | ⟨-, e⟩ | ⟨-, e⟩ | ⟨hopc, e⟩ | ⟨hopc, e⟩ | ⟨-, e⟩ | ⟨-, e⟩ | ⟨-, e⟩
  case inr.inr.inr.inl => exact e ▸ .inr (.inl ⟨hopc, rfl⟩)
  case inr.inr.inr.inr.inl => exact e ▸ .inr (.inr ⟨hopc, rfl⟩)
  all_goals
    rw [e]
    exact .inl rfl

theorem writeReg_en (off : Offset) (v : Word) (s : State) :
    (writeReg off v s).en = s.en ∨ (off = 0x0000#15 ∧ cmdOpc v = 0x03#8 ∧ (writeReg off v s).en = true) ∨
      (off = 0x0000#15 ∧ cmdOpc v = 0x04#8 ∧ (writeReg off v s).en = false) := by
  rcases writeReg_cases off v s with ⟨rfl, e⟩ | ⟨-, e⟩ | ⟨-, e⟩ | ⟨-, e⟩ | ⟨-, e⟩ | ⟨-, -, -, -, -, e⟩
  · rw [e]
    simpa using command_en v s
  · rw [e, writeStatus_eq]
    exact .inl rfl
  all_goals
    rw [e]
    exact .inl rfl

/-- What an instruction does to the run flag (R23). -/
theorem Effect.en {i : Instr} {s t : State} (h : Effect i s t) :
    t.en = s.en ∨ (i.toEvent = .reset ∧ t.en = false) ∨ ((IsCommand i fun opc => opc = 0x03#8) ∧ t.en = true) ∨
      ((IsCommand i fun opc => opc = 0x04#8) ∧ t.en = false) := by
  cases h with
  | reset h => exact .inr (.inl ⟨h ▸ rfl, rfl⟩)
  | tick rx _ _ ht => exact .inl (tick_settings ht).en
  | submit m =>
    obtain ⟨q, e⟩ := submit_eq_setTxq m s
    exact .inl (e ▸ rfl)
  | write off v h =>
    rcases writeReg_en off v s with e | ⟨rfl, hopc, e⟩ | ⟨rfl, hopc, e⟩
    · exact .inl e
    · exact .inr (.inr (.inl ⟨⟨v, h, hopc⟩, e⟩))
    · exact .inr (.inr (.inr ⟨⟨v, h, hopc⟩, e⟩))
  | read | badOpcode | ignored => exact .inl rfl

/-- Settles O50: of the three ways the flag can be written, one sets it and two clear it (`Effect.en`). -/
theorem runFlagMovesOnlyByStartStopReset : Obligations.RunFlagMovesOnlyByStartStopReset := by
  intro i s t _ h
  rcases (exec_effect h).en with e | ⟨hreset, e⟩ | ⟨hstart, e⟩ | ⟨hstop, e⟩
  · exact ⟨fun hs ht => by simp [e, hs] at ht, fun hs ht => by simp [e, hs] at ht⟩
  · exact ⟨fun _ ht => by simp [e] at ht, fun _ _ => .inl hreset⟩
  · exact ⟨fun _ _ => hstart, fun _ ht => by simp [e] at ht⟩
  · exact ⟨fun _ ht => by simp [e] at ht, fun _ _ => .inr hstop⟩

/-- The rule of R25 to R28 for one instruction: each setting moves only by its own write. -/
def SettingsByTheirWrites (e : Event) (s t : State) : Prop :=
  (t.crcReg ≠ s.crcReg → ∃ v, e = .regWrite 0x0000#15 v ∧ (cmdOpc v = 0x01#8 ∨ cmdOpc v = 0x02#8)) ∧
  (t.dstAddr ≠ s.dstAddr → ∃ v, e = .regWrite 0x0008#15 v) ∧
  (t.bucketTtl ≠ s.bucketTtl → ∃ v, e = .regWrite 0x0010#15 v) ∧
  (t.discTimeout ≠ s.discTimeout → ∃ v, e = .regWrite 0x0014#15 v)

theorem settingsByTheirWrites_of_eq {e : Event} {s t : State} (hcrc : t.crcReg = s.crcReg)
    (hdst : t.dstAddr = s.dstAddr) (httl : t.bucketTtl = s.bucketTtl) (htimeout : t.discTimeout = s.discTimeout) :
    SettingsByTheirWrites e s t :=
  ⟨fun h => absurd hcrc h, fun h => absurd hdst h, fun h => absurd httl h, fun h => absurd htimeout h⟩

theorem command_settings (v : Word) (s : State) :
    SettingsByTheirWrites (.regWrite 0x0000#15 v) s (command v s) := by
  have hcrc : ∀ c, cmdOpc v = 0x01#8 ∨ cmdOpc v = 0x02#8 →
      SettingsByTheirWrites (.regWrite 0x0000#15 v) s (s.setCrcReg c) := fun c hopc =>
    ⟨fun _ => ⟨v, rfl, hopc⟩, fun h => absurd rfl h, fun h => absurd rfl h, fun h => absurd rfl h⟩
  rcases command_cases v s with ⟨-, e⟩ | ⟨hopc, e⟩ | ⟨hopc, e⟩ | ⟨-, e⟩ | ⟨-, e⟩ | ⟨-, e⟩ | ⟨-, e⟩ | ⟨-, e⟩
  case inr.inl => exact e ▸ hcrc _ (.inl hopc)
  case inr.inr.inl => exact e ▸ hcrc _ (.inr hopc)
  all_goals
    rw [e]
    exact settingsByTheirWrites_of_eq rfl rfl rfl rfl

theorem writeReg_settings (off : Offset) (v : Word) (s : State) :
    SettingsByTheirWrites (.regWrite off v) s (writeReg off v s) := by
  rcases writeReg_cases off v s with ⟨rfl, e⟩ | ⟨-, e⟩ | ⟨rfl, e⟩ | ⟨rfl, e⟩ | ⟨rfl, e⟩ | ⟨-, -, -, -, -, e⟩
  · exact e ▸ command_settings v s
  · rw [e, writeStatus_eq]
    exact settingsByTheirWrites_of_eq rfl rfl rfl rfl
  · exact e ▸ ⟨fun h => absurd rfl h, fun _ => ⟨v, rfl⟩, fun h => absurd rfl h, fun h => absurd rfl h⟩
  · exact e ▸ ⟨fun h => absurd rfl h, fun h => absurd rfl h, fun _ => ⟨v, rfl⟩, fun h => absurd rfl h⟩
  · exact e ▸ ⟨fun h => absurd rfl h, fun h => absurd rfl h, fun h => absurd rfl h, fun _ => ⟨v, rfl⟩⟩
  · rw [e]
    exact settingsByTheirWrites_of_eq rfl rfl rfl rfl

theorem Effect.settings {i : Instr} {s t : State} (h : Effect i s t) :
    i.toEvent = .reset ∨ SettingsByTheirWrites i.toEvent s t := by
  cases h with
  | reset h => exact .inl (h ▸ rfl)
  | tick rx _ _ ht =>
    have hset := tick_settings ht
    exact .inr (settingsByTheirWrites_of_eq hset.crcReg hset.dstAddr hset.bucketTtl hset.discTimeout)
  | submit m =>
    obtain ⟨q, e⟩ := submit_eq_setTxq m s
    exact .inr (e ▸ settingsByTheirWrites_of_eq rfl rfl rfl rfl)
  | write off v h => exact .inr (h ▸ writeReg_settings off v s)
  | read | badOpcode | ignored => exact .inr (settingsByTheirWrites_of_eq rfl rfl rfl rfl)

/-- Settles O51: what every effect of an instruction does to the parameters and to the settings. -/
theorem settingsMoveOnlyByTheirWrites : Obligations.SettingsMoveOnlyByTheirWrites :=
  fun _ _ _ _ h => ⟨(exec_effect h).cfg_input.1, (exec_effect h).settings⟩

end Sys2Proof.Machine
end

section
/-! PROOFS. The invariant of the state (spec/10_state.md R42): it holds after RESET, every event keeps it, and so every
reachable state meets it. -/

namespace Sys2Proof.Machine

/-! ### The reassembly store -/

/-- The part of the invariant that speaks of the slots (R31, R42 (a) to (c)), slot by slot. -/
structure StoreInv (cfg : Config.Params) (slots : List Slot) : Prop where
  count   : slots.length = cfg.nb.toNat
  apart   : ∀ (i j : Nat) (b c : Bucket), i ≠ j → slots[i]? = some (some b) → slots[j]? = some (some c) →
    b.frameId ≠ c.frameId
  buckets : ∀ b, some b ∈ slots → b.Inv cfg

/-- Identifiers are distinct as a list of buckets exactly when no two slots share one. -/
theorem nodup_ids_iff (s : State) : (s.buckets.map Bucket.frameId).Nodup ↔
    ∀ (i j : Nat) (b c : Bucket), i ≠ j → s.slots[i]? = some (some b) → s.slots[j]? = some (some c) →
      b.frameId ≠ c.frameId := by
  rw [List.Nodup, List.pairwise_map, State.buckets, List.pairwise_filterMap, List.pairwise_iff_getElem]
  constructor
  · intro h i j b c hij hi hj
    obtain ⟨hi', hb⟩ := List.getElem?_eq_some_iff.mp hi
    obtain ⟨hj', hc⟩ := List.getElem?_eq_some_iff.mp hj
    rcases lt_or_gt_of_ne hij with hlt | hgt
    · exact h i j hi' hj' hlt b hb c hc
    · exact (h j i hj' hi' hgt c hc b hb).symm
  · intro h i j hi hj hlt b hb c hc
    exact h i j b c (by omega) (List.getElem?_eq_some_iff.mpr ⟨hi, hb⟩) (List.getElem?_eq_some_iff.mpr ⟨hj, hc⟩)

theorem State.Inv.store {s : State} (h : s.Inv) : StoreInv s.cfg s.slots :=
  ⟨h.slotCount, (nodup_ids_iff s).mp h.distinctIds, fun b hb => h.bucketsOk b (mem_buckets.mpr hb)⟩

theorem State.Inv.setSlots {s : State} {slots : List Slot} (h : s.Inv) (hslots : StoreInv s.cfg slots) :
    (s.setSlots slots).Inv :=
  { h with
    slotCount := hslots.count
    distinctIds := (nodup_ids_iff _).mpr hslots.apart
    bucketsOk := fun b hb => hslots.buckets b (mem_buckets.mp hb) }

theorem storeInv_free (cfg : Config.Params) : StoreInv cfg (List.replicate cfg.nb.toNat none) := by
  refine ⟨List.length_replicate, fun i j b c _ hi _ => ?_, fun b hb => ?_⟩
  · cases (List.eq_of_mem_replicate (List.mem_of_getElem? hi))
  · cases (List.eq_of_mem_replicate hb)

/-- An update of every slot by itself that frees it or keeps its identifier. -/
theorem StoreInv.map {cfg : Config.Params} {slots : List Slot} (h : StoreInv cfg slots) {f : Slot → Slot}
    (hf : ∀ (o : Slot) (c : Bucket), f o = some c → ∃ b, o = some b ∧ c.frameId = b.frameId ∧ (b.Inv cfg → c.Inv cfg)) :
    StoreInv cfg (slots.map f) := by
  have hback : ∀ (i : Nat) (c : Bucket), (slots.map f)[i]? = some (some c) →
      ∃ b, slots[i]? = some (some b) ∧ c.frameId = b.frameId := by
    intro i c hc
    rw [List.getElem?_map, Option.map_eq_some_iff] at hc
    obtain ⟨o, ho, hoc⟩ := hc
    obtain ⟨b, rfl, hid, -⟩ := hf o c hoc
    exact ⟨b, ho, hid⟩
  refine ⟨by rw [List.length_map, h.count], fun i j b c hij hi hj => ?_, fun c hc => ?_⟩
  · obtain ⟨b', hb', hidb⟩ := hback i b hi
    obtain ⟨c', hc', hidc⟩ := hback j c hj
    rw [hidb, hidc]
    exact h.apart i j b' c' hij hb' hc'
  · obtain ⟨o, ho, hoc⟩ := List.mem_map.mp hc
    obtain ⟨b, rfl, -, hinv⟩ := hf o c hoc
    exact hinv (h.buckets b ho)

/-- An update of one slot that frees it or gives it a bucket whose identifier no other slot has. -/
theorem StoreInv.set {cfg : Config.Params} {slots : List Slot} (h : StoreInv cfg slots) (k : Nat) {v : Slot}
    (hinv : ∀ c, v = some c → c.Inv cfg)
    (hnew : ∀ c, v = some c → ∀ (j : Nat) (b : Bucket), j ≠ k → slots[j]? = some (some b) → b.frameId ≠ c.frameId) :
    StoreInv cfg (slots.set k v) := by
  have hback : ∀ (i : Nat) (c : Bucket), (slots.set k v)[i]? = some (some c) →
      (i = k ∧ v = some c) ∨ (i ≠ k ∧ slots[i]? = some (some c)) := by
    intro i c hc
    rw [List.getElem?_set] at hc
    split_ifs at hc with hik hlt
    · exact .inl ⟨hik.symm, Option.some.inj hc⟩
    · exact .inr ⟨Ne.symm hik, hc⟩
  refine ⟨by rw [List.length_set, h.count], fun i j b c hij hi hj => ?_, fun c hc => ?_⟩
  · rcases hback i b hi with ⟨rfl, hb⟩ | ⟨hik, hb⟩ <;> rcases hback j c hj with ⟨rfl, hc⟩ | ⟨hjk, hc⟩
    · exact absurd rfl hij
    · exact (hnew b hb j c hjk hc).symm
    · exact hnew c hc i b hik hb
    · exact h.apart i j b c hij hb hc
  · rcases List.mem_or_eq_of_mem_set hc with hc | hc
    · exact h.buckets c hc
    · exact hinv c hc.symm

theorem StoreInv.free {cfg : Config.Params} {slots : List Slot} (h : StoreInv cfg slots) (k : Nat) :
    StoreInv cfg (slots.set k none) :=
  h.set k (fun _ hc => by cases hc) (fun _ hc => by cases hc)

/-- The invariant of a bucket does not speak of its age. -/
theorem Bucket.Inv.aged {cfg : Config.Params} {b : Bucket} (h : b.Inv cfg) (age : Word) :
    Bucket.Inv cfg { b with age := age } :=
  ⟨h.totalLow, h.totalHigh, h.rising, h.inRange, h.nonEmpty, h.notFull, h.payloads⟩

theorem StoreInv.age {cfg : Config.Params} {slots : List Slot} (h : StoreInv cfg slots) (ttl : Word) :
    StoreInv cfg (slots.map (ageSlot ttl)) := by
  refine h.map fun o c hc => ?_
  cases o with
  | none => cases hc
  | some b =>
    rw [ageSlot] at hc
    split_ifs at hc
    cases hc
    exact ⟨b, rfl, rfl, fun hb => hb.aged _⟩

theorem StoreInv.freeById {cfg : Config.Params} {slots : List Slot} (h : StoreInv cfg slots) (id : Word) :
    StoreInv cfg (freeById id slots) := by
  refine h.map fun o c hc => ?_
  cases o with
  | none => cases hc
  | some b =>
    simp only at hc
    split_ifs at hc
    cases hc
    exact ⟨_, rfl, rfl, fun hb => hb⟩

/-! ### A bucket that takes a fragment -/

/-- A bucket as it is being filled: `Bucket.Inv` but for the two clauses that shut out the empty and the full one. -/
structure Bucket.Filling (cfg : Config.Params) (b : Bucket) : Prop where
  totalLow  : 2 ≤ b.total.toNat
  totalHigh : b.total.toNat ≤ cfg.maxFrag.toNat
  rising    : b.held.Pairwise (· < ·)
  inRange   : ∀ o ∈ b.held, 1 ≤ o ∧ o ≤ b.total.toNat
  payloads  : ∀ p ∈ b.frags, p.2.length = Config.payloadLen

theorem Bucket.Inv.filling {cfg : Config.Params} {b : Bucket} (h : b.Inv cfg) : b.Filling cfg :=
  ⟨h.totalLow, h.totalHigh, h.rising, h.inRange, h.payloads⟩

/-- A fragment of a set, and not a set of one, has a total of at least 2 (R156). -/
theorem Acceptable.two_le_total {cfg : Config.Params} {f : Frame} (h : Acceptable cfg f) (hmulti : f.frameTotal ≠ 1#8) :
    2 ≤ f.frameTotal.toNat := by
  have hone : f.frameTotal.toNat ≠ 1 := fun e => hmulti (BitVec.eq_of_toNat_eq e)
  have hlow := h.orderLow
  have hmax := h.orderMax
  omega

theorem filling_newBucket {cfg : Config.Params} {f : Frame} (h : Acceptable cfg f) (hmulti : f.frameTotal ≠ 1#8) :
    (newBucket f).Filling cfg :=
  ⟨h.two_le_total hmulti, h.totalMax, .nil, fun _ ho => (List.not_mem_nil ho).elim,
    fun _ hp => (List.not_mem_nil hp).elim⟩

theorem Bucket.Filling.store {cfg : Config.Params} {b : Bucket} {f : Frame} (h : b.Filling cfg)
    (hacc : Acceptable cfg f) (htotal : b.total = f.frameTotal) :
    (b.store f.frameOrder.toNat f.payload).Filling cfg := by
  refine ⟨h.totalLow, h.totalHigh, store_rising h.rising, fun o ho => ?_, fun p hp => ?_⟩
  · rcases mem_store_held.mp ho with rfl | ho
    · exact ⟨hacc.orderLow, htotal ▸ hacc.orderMax⟩
    · exact h.inRange o ho
  · rcases insertFrag_mem hp with rfl | hp
    · exact hacc.payload
    · exact h.payloads p hp

/-- A fragment that does not complete its bucket leaves one in progress (R163). -/
theorem Bucket.Filling.store_inv {cfg : Config.Params} {b : Bucket} {f : Frame} (h : b.Filling cfg)
    (hacc : Acceptable cfg f) (htotal : b.total = f.frameTotal)
    (hwaits : (b.store f.frameOrder.toNat f.payload).complete = false) :
    (b.store f.frameOrder.toNat f.payload).Inv cfg := by
  have hs := h.store hacc htotal
  refine ⟨hs.totalLow, hs.totalHigh, hs.rising, hs.inRange, fun hnil => ?_, fun hfull => ?_, hs.payloads⟩
  · have hmem : f.frameOrder.toNat ∈ (b.store f.frameOrder.toNat f.payload).held := mem_store_held.mpr (.inl rfl)
    rw [hnil] at hmem
    cases hmem
  · rw [(complete_iff _).mpr hfull] at hwaits
    cases hwaits

/-- A message as the receiver delivers it (R65, R164): whole payloads, at least one and at most `P_MAXFRAG`. -/
def WholeMessage (cfg : Config.Params) (m : List Byte) : Prop :=
  ∃ n, 1 ≤ n ∧ n ≤ cfg.maxFrag.toNat ∧ m.length = 50 * n

/-- A new bucket holds one fragment of at least two, so it is not complete (R159). -/
theorem newBucket_store_complete {cfg : Config.Params} {f : Frame} (h : Acceptable cfg f)
    (hmulti : f.frameTotal ≠ 1#8) :
    ((newBucket f).store f.frameOrder.toNat f.payload).complete = false := by
  have htotal := h.two_le_total hmulti
  rw [Bool.eq_false_iff, Ne, complete_iff]
  intro hfull
  have hlength : 1 = f.frameTotal.toNat := by
    calc 1 = ((newBucket f).store f.frameOrder.toNat f.payload).held.length := rfl
      _ = f.frameTotal.toNat := by rw [hfull, Bucket.numbers, List.length_range', store_total, newBucket]
  omega

/-- A bucket in progress that a fragment completes gives a whole message (R164). -/
theorem Bucket.Inv.store_message_whole {cfg : Config.Params} {b : Bucket} {f : Frame} (h : b.Inv cfg)
    (hacc : Acceptable cfg f) (hfull : (b.store f.frameOrder.toNat f.payload).complete = true) :
    WholeMessage cfg (b.store f.frameOrder.toNat f.payload).message := by
  have hlow := h.totalLow
  refine ⟨b.total.toNat, by omega, h.totalHigh, message_length fun j h1 h2 => ?_⟩
  have hj : j ∈ (b.store f.frameOrder.toNat f.payload).held := by
    rw [(complete_iff _).mp hfull, Bucket.numbers, List.mem_range'_1]
    omega
  rw [store_frag h.rising]
  split
  · exact hacc.payload
  · rename_i hne
    exact h.frag_length ((mem_store_held.mp hj).resolve_left hne)

/-! ### The phases of a TICK -/

/-- What the data path does to a state that meets the invariant: it puts a good store in place of the slots, and at most
dispatches one whole message. -/
def Received (s t : State) : Prop :=
  ∃ slots, StoreInv s.cfg slots ∧
    (t = s.setSlots slots ∨ ∃ m, WholeMessage s.cfg m ∧ t = (s.setSlots slots).dispatch m)

theorem singleFragment_received {s : State} {f : Frame} (h : s.Inv) (hacc : Acceptable s.cfg f)
    (hone : f.frameTotal = 1#8) : Received s (singleFragment f s) := by
  have htotal : f.frameTotal.toNat = 1 := by rw [hone]; rfl
  exact ⟨_, h.store.freeById f.frameId, .inr ⟨f.payload, ⟨1, le_rfl, htotal ▸ hacc.totalMax, hacc.payload⟩, rfl⟩⟩

theorem Filed.received {s t : State} {f : Frame} {v : Verdict} (hfiled : Filed f s v t) (h : s.Inv)
    (hacc : Acceptable s.cfg f) (hmulti : f.frameTotal ≠ 1#8) : Received s t := by
  obtain ⟨k, b, hfound | hnew, -, hwhat⟩ := hfiled
  case inl =>
    obtain ⟨hlookup, htotal⟩ := hfound
    obtain ⟨hk, hid, -⟩ := lookupSlot_eq_some.mp hlookup
    have hb : b.Inv s.cfg := h.store.buckets b (List.mem_of_getElem? hk)
    rcases hwhat with ⟨-, hfull, rfl⟩ | ⟨-, hwaits, rfl⟩
    · exact ⟨_, h.store.free k, .inr ⟨_, hb.store_message_whole hacc hfull, rfl⟩⟩
    · refine ⟨_, h.store.set k ?_ ?_, .inl rfl⟩
      · rintro _ ⟨⟩
        exact hb.filling.store_inv hacc htotal hwaits
      · rintro _ ⟨⟩ j c hj hc
        exact h.store.apart j k c b hj hc hk
  case inr =>
    obtain ⟨hlookup, -, rfl⟩ := hnew
    rcases hwhat with ⟨-, hfull, -⟩ | ⟨-, hwaits, rfl⟩
    · rw [newBucket_store_complete hacc hmulti] at hfull
      cases hfull
    · refine ⟨_, h.store.set k ?_ ?_, .inl rfl⟩
      · rintro _ ⟨⟩
        exact (filling_newBucket hacc hmulti).store_inv hacc rfl hwaits
      · rintro _ ⟨⟩ j c _ hc
        exact lookupSlot_eq_none.mp hlookup c (List.mem_of_getElem? hc)

theorem deframe_received {rx : List Byte} {s t : State} {v : Verdict} (h : s.Inv)
    (hdeframe : deframe rx s = .ok (v, t)) : Received s t := by
  rcases deframe_cases hdeframe with ⟨-, rfl⟩ | ⟨f, -, -, hacc, ⟨-, hone, rfl⟩ | ⟨hmulti, hfiled⟩⟩
  · exact ⟨_, h.store, .inl rfl⟩
  · exact singleFragment_received h hacc hone
  · exact hfiled.received h hacc hmulti

theorem State.Inv.dispatch {s : State} {m : List Byte} (h : s.Inv) (hm : WholeMessage s.cfg m) :
    (s.dispatch m).Inv := by
  obtain ⟨n, hlow, hhigh, hlen⟩ := hm
  have hwhole : m.length % Config.payloadLen = 0 := by rw [hlen, Config.payloadLen, Nat.mul_mod_right]
  have hbound : m.length ≤ Config.payloadLen * s.cfg.maxFrag.toNat := by rw [hlen]; exact Nat.mul_le_mul_left 50 hhigh
  have hleast : Config.payloadLen ≤ m.length := by rw [hlen]; exact Nat.le_mul_of_pos_right 50 hlow
  refine { h with lastWhole := hwhole, lastBound := hbound, delivered := fun m' hm' => ?_ }
  rcases List.mem_append.mp hm' with hm' | hm'
  · exact h.delivered m' hm'
  · rw [List.mem_singleton.mp hm']
    exact ⟨hwhole, hleast, hbound⟩

theorem Received.inv {s t : State} (hreceived : Received s t) (h : s.Inv) : t.Inv := by
  obtain ⟨slots, hslots, rfl | ⟨m, hm, rfl⟩⟩ := hreceived
  · exact h.setSlots hslots
  · exact (h.setSlots hslots).dispatch hm

theorem State.Inv.takeRx {s : State} (h : s.Inv) (rx : List Byte) : (s.takeRx rx).Inv := { h with }

theorem State.Inv.ageBuckets {s : State} (h : s.Inv) : (ageBuckets s).Inv := h.setSlots (h.store.age s.bucketTtl)

/-- The check ends the wait only when no request is pending (R167). -/
theorem discObserve_inv {rx : List Byte} {s t : State} (h : s.Inv) (hobserve : discObserve rx s = .ok t) : t.Inv := by
  obtain ⟨d, w, rfl, hd⟩ := discObserve_cases hobserve
  refine { h with pendingWait := fun hpending => ?_ }
  rcases hd with rfl | ⟨hout, -⟩
  · exact h.pendingWait hpending
  · exact absurd hpending (by simp [((discOutstanding_iff s).mp hout).2])

/-- Frames of 64 bytes go out under a draw, from a queue that lost its head or stayed. -/
theorem State.Inv.sent {s : State} {q frames : List (List Byte)} (h : s.Inv) (hq : q.Sublist s.txq)
    (hframes : ∀ b ∈ frames, b.length = 64) : ((s.setTxq q).drawn.emitTx frames).Inv :=
  { h with
    queueBound := hq.length_le.trans h.queueBound
    messages := fun m hm => h.messages m (hq.subset hm)
    framesSent := fun b hb => (List.mem_append.mp hb).elim (h.framesSent b) (hframes b) }

theorem length_of_mem_map_wireOf {fs : List Frame} (hfit : ∀ f ∈ fs, f.payload.length ≤ 50) :
    ∀ b ∈ fs.map wireOf, b.length = 64 := by
  intro b hb
  obtain ⟨f, hf, rfl⟩ := List.mem_map.mp hb
  exact wireOf_length (hfit f hf)

theorem sendHead_inv {s t : State} (h : s.Inv) (hsend : sendHead s = .ok t) : t.Inv := by
  rcases sendHead_cases hsend with ⟨-, rfl⟩ | ⟨m, rest, hq, rfl⟩
  · exact h
  · exact h.sent (hq ▸ List.sublist_cons_self m rest) (length_of_mem_map_wireOf fragments_fit)

theorem requestSent_inv {s : State} (h : s.Inv) : s.requestSent.Inv := by
  have hsent := h.sent (List.Sublist.refl s.txq) (frames := [wireOf (discRequest s.dstAddr s.nextId)])
    fun b hb => List.mem_singleton.mp hb ▸ wireOf_length (Nat.zero_le 50)
  exact { hsent with pendingWait := fun hpending => by cases hpending }

/-- R184, with no request pending. -/
theorem outgoing_not_pending {s : State} (h : s.discPending = false) : outgoing s = sendHead s := by
  unfold outgoing
  rw [sendRequest_eq, h]
  rfl

theorem outgoing_inv {s t : State} (h : s.Inv) (hout : outgoing s = .ok t) : t.Inv := by
  cases hp : s.discPending with
  | false => exact sendHead_inv h (outgoing_not_pending hp ▸ hout)
  | true => exact sendHead_inv (requestSent_inv h) (outgoing_pending hp ▸ hout)

theorem tick_inv {rx : List Byte} {s t : State} (h : s.Inv) (htick : tick rx s = .ok t) : t.Inv := by
  unfold tick at htick
  split at htick
  · obtain ⟨u, v, w, hu, hw, ht⟩ := runTick_cases htick
    have hobserved : u.Inv := discObserve_inv (h.takeRx rx).ageBuckets hu
    exact outgoing_inv ((deframe_received hobserved hw).inv hobserved) ht
  · cases htick
    exact h

/-! ### The other events -/

/-- The state right after RESET: every slot free, everything else empty or idle (R44). -/
theorem resetOf_inv {cfg : Config.Params} (h : cfg.legal = true) : (State.resetOf cfg).Inv where
  legal := h
  slotCount := (storeInv_free cfg).count
  distinctIds := (nodup_ids_iff _).mpr (storeInv_free cfg).apart
  bucketsOk := fun b hb => (storeInv_free cfg).buckets b (mem_buckets.mp hb)
  queueBound := Nat.zero_le _
  messages := fun _ hm => by cases hm
  pendingWait := fun hpending => by cases hpending
  lastWhole := rfl
  lastBound := Nat.zero_le _
  framesSent := fun _ hb => by cases hb
  delivered := fun _ hm => by cases hm

/-- Settles O53: `State.reset` is `resetOf` of one legal choice of parameters. -/
theorem invariantHoldsAfterReset : Obligations.InvariantHoldsAfterReset :=
  ⟨fun _ => resetOf_inv, resetOf_inv rfl⟩

theorem hardReset_inv {s : State} (h : s.Inv) : s.hardReset.Inv :=
  { resetOf_inv h.legal with framesSent := h.framesSent, delivered := h.delivered }

theorem softReset_inv {s : State} (h : s.Inv) : s.softReset.Inv :=
  { h.setSlots (h.store.map (f := fun _ => none) fun _ _ hc => by cases hc) with
    queueBound := Nat.zero_le _
    messages := fun _ hm => by cases hm
    pendingWait := fun hpending => by cases hpending
    lastWhole := rfl
    lastBound := Nat.zero_le _ }

theorem discStart_inv {s : State} (h : s.Inv) : s.discStart.Inv := { h with pendingWait := fun _ => rfl }

theorem command_inv (v : Word) {s : State} (h : s.Inv) : (command v s).Inv := by
  rcases command_cases v s with ⟨-, e⟩ | ⟨-, e⟩ | ⟨-, e⟩ | ⟨-, e⟩ | ⟨-, e⟩ | ⟨-, e⟩ | ⟨-, e⟩ | ⟨-, e⟩
  case inr.inr.inr.inr.inr.inl => exact e ▸ softReset_inv h
  case inr.inr.inr.inr.inr.inr.inl => exact e ▸ discStart_inv h
  all_goals
    rw [e]
    exact { h with }

theorem writeReg_inv (off : Offset) (v : Word) {s : State} (h : s.Inv) : (writeReg off v s).Inv := by
  rcases writeReg_cases off v s with ⟨-, e⟩ | ⟨-, e⟩ | ⟨-, e⟩ | ⟨-, e⟩ | ⟨-, e⟩ | ⟨-, -, -, -, -, e⟩
  · exact e ▸ command_inv v h
  · rw [e, writeStatus_eq]
    exact { h with }
  all_goals
    rw [e]
    exact { h with }

/-- What an accepted message has passed (R181, R182). -/
theorem submitStatus_eq_accept {m : List Byte} {s : State} (h : submitStatus m s = .accept) :
    m.length ≤ Config.maxMsg ∧ s.txq.length ≠ s.cfg.txqMax.toNat := by
  unfold submitStatus at h
  split_ifs at h with hlong hfull
  exact ⟨not_lt.mp hlong, hfull⟩

theorem submit_inv (m : List Byte) {s : State} (h : s.Inv) : (submit m s).Inv := by
  rcases submit_cases m s with ⟨hacc, e⟩ | ⟨-, e⟩
  · obtain ⟨hfits, hroom⟩ := submitStatus_eq_accept hacc
    have hqueue := h.queueBound
    rw [e]
    refine { h with queueBound := ?_, messages := fun m' hm' => ?_ }
    · rw [State.setTxq_txq, List.length_append, List.length_singleton, State.setTxq_cfg]
      omega
    · rcases List.mem_append.mp hm' with hm' | hm'
      · exact h.messages m' hm'
      · exact List.mem_singleton.mp hm' ▸ hfits
  · rwa [e]

theorem Effect.inv {i : Instr} {s t : State} (heffect : Effect i s t) (h : s.Inv) : t.Inv := by
  cases heffect with
  | reset => exact hardReset_inv h
  | tick rx _ _ ht => exact tick_inv h ht
  | submit m => exact { submit_inv m h with }
  | write off v => exact writeReg_inv off v h
  | read | badOpcode => exact { h with }
  | ignored => exact h

/-- Settles O54: taking an event off the input touches nothing the invariant speaks of, and each effect of an
instruction keeps it (`Effect.inv`). -/
theorem stepKeepsInvariant : Obligations.StepKeepsInvariant := by
  intro s t h hstep
  rcases step_cases hstep with rfl | ⟨i, hexec⟩
  · exact h
  · exact (exec_effect hexec).inv { h with }

/-- Settles O55, by induction on how the state was reached. -/
theorem reachableStatesAreSafe : Obligations.ReachableStatesAreSafe := by
  intro s hreach
  refine ⟨?_, step_ne_encOversize s⟩
  induction hreach with
  | reset cfg h => exact resetOf_inv h
  | offered s events ids _ ih => exact { ih with }
  | stepped s t _ hs ih => exact stepKeepsInvariant s t ih hs

/-! ### The registers after RESET -/

theorem statusWord_hardReset (s : State) : statusWord s.hardReset = 0#32 := by
  have hused : s.hardReset.bucketsUsed = 0 := by simp [State.bucketsUsed]
  simp [statusWord, hused, flagWord, DiscState.code]

/-- Settles O10: `hardReset` is the state written out, and each register reads its field. -/
theorem resetEventRestoresResetValues : Obligations.ResetEventRestoresResetValues :=
  fun s => ⟨s.hardReset, rfl, rfl, statusWord_hardReset s, rfl, BitVec.xor_self, rfl, rfl, rfl, rfl, rfl⟩

end Sys2Proof.Machine
end

section
/-! PROOFS. The running TICK (spec/42_tick.md R140 to R143) and what an event adds to the last message (R165) and to the
ports (R65). -/

namespace Sys2Proof.Machine

/-! ### The phases -/

theorem runTick_of_running {s t : State} {rx : List Byte} (hen : s.en = true) (h : tick rx s = .ok t) :
    runTick rx s = .ok t := by
  rwa [tick, if_pos hen] at h

/-- A TICK whose phases answer `u`, `w` and `t`, one on the other (R142), answers `t`. -/
theorem exec_tick_of_phases {s u w t : State} {rx : List Byte} {v : Verdict} (hen : s.en = true)
    (hu : discObserve rx (ageBuckets (s.takeRx rx)) = .ok u) (hw : deframe rx u = .ok (v, w))
    (ht : outgoing w = .ok t) : exec (.tick rx) s = .next t := by
  refine exec_tick_of_ok ?_
  unfold tick runTick incoming
  rw [if_pos hen, hu]
  simp only
  rw [hw]
  exact ht

/-- A running TICK with no block, nothing queued and nothing pending (R140, R168). -/
theorem exec_empty_tick {s : State} (hen : s.en = true) (hq : s.txq = []) (hsent : s.discPending = false) :
    exec (.tick []) s =
      .next (if s.discState = .wait then discTimeoutTick (ageBuckets s) else ageBuckets s) := by
  by_cases hwait : s.discState = .wait
  · rw [if_pos hwait]
    have hidle : outgoing (discTimeoutTick (ageBuckets s)) = .ok (discTimeoutTick (ageBuckets s)) := by
      have hobserve := (discObserve_frame (discObserve_empty (s := ageBuckets s) ⟨hwait, hsent⟩)).2.1
      exact outgoing_idle (hobserve.discPending.trans hsent) (hobserve.txq.trans hq)
    exact exec_tick_of_phases hen (discObserve_empty ⟨hwait, hsent⟩) (deframe_nil _) hidle
  · rw [if_neg hwait]
    exact exec_tick_of_phases hen (discObserve_idle [] fun h => hwait h.1) (deframe_nil _) (outgoing_idle hsent hq)

/-- Settles O21: the phases of any running TICK by `runTick_cases`, the idle one by `exec_empty_tick`. -/
theorem runningTickRunsPhasesInOrder : Obligations.RunningTickRunsPhasesInOrder := by
  refine fun s rx hen => ⟨?_, exec_empty_tick hen⟩
  obtain ⟨t, htick⟩ := tick_total rx s
  obtain ⟨u, v, w, hu, hw, ht⟩ := runTick_cases (runTick_of_running hen htick)
  exact ⟨u, v, w, t, hu, hw, ht, exec_tick_of_ok htick, tick_settings htick⟩

/-! ### The discovery check and the data path -/

/-- An empty tick of a waiting discovery counts the wait, and at the timeout sets FAIL (R168). -/
theorem discTimeoutTick_eq (s : State) : discTimeoutTick s = { s with
    discState := if (satSucc s.discWait).toNat ≥ s.discTimeout.toNat then .fail else s.discState
    discWait := satSucc s.discWait } := by
  unfold discTimeoutTick
  split
  · rfl
  · rfl

/-- The discovery check reads the `disc_*` fields alone, and answers with two of them. -/
theorem discObserve_of_sameDisc {rx : List Byte} {s t u : State} (h : discObserve rx s = .ok u)
    (hstate : t.discState = s.discState) (hpending : t.discPending = s.discPending) (hwait : t.discWait = s.discWait)
    (htimeout : t.discTimeout = s.discTimeout) :
    discObserve rx t = .ok { t with discState := u.discState, discWait := u.discWait } := by
  by_cases hout : s.discState = .wait ∧ s.discPending = false
  · have hout' : t.discState = .wait ∧ t.discPending = false := by rwa [hstate, hpending]
    by_cases hne : rx = []
    · subst hne
      cases (discObserve_empty hout).symm.trans h
      rw [discObserve_empty hout', discTimeoutTick_eq, discTimeoutTick_eq, hstate, hwait, htimeout]
    · obtain ⟨good, hgood⟩ := goodReply_total rx
      cases (discObserve_block hout hne hgood).symm.trans h
      rw [discObserve_block hout' hne hgood]
      simp [State.setDiscState, ← hwait]
  · cases (discObserve_idle rx hout).symm.trans h
    rw [discObserve_idle rx (by rwa [hstate, hpending]), ← hstate, ← hwait]

theorem SameSettings.symm {s t : State} (h : SameSettings s t) : SameSettings t s :=
  ⟨h.1.symm, h.2.symm, h.3.symm, h.4.symm, h.5.symm, h.6.symm, h.7.symm, h.8.symm, h.9.symm⟩

theorem SameSendSide.symm {s t : State} (h : SameSendSide s t) : SameSendSide t s :=
  ⟨h.1.symm, h.2.symm, h.3.symm, h.4.symm, h.5.symm⟩

/-- The settings, the two sides and the wait count are the whole state. -/
theorem State.eq_of_sides {s t : State} (hset : SameSettings s t) (hsend : SameSendSide s t)
    (hrecv : SameReceiveSide s t) (hwait : t.discWait = s.discWait) : t = s := by
  obtain ⟨h1, h2, h3, h4, h5, h6, h7, h8, h9⟩ := hset
  obtain ⟨g1, g2, g3, g4, g5⟩ := hsend
  obtain ⟨k1, k2, k3, k4, k5, k6⟩ := hrecv
  cases s
  cases t
  simp only at *
  subst_vars
  rfl

/-- Settles O22: the check moves two fields that the data path does not read (`deframe_sameStore`) nor write
(`deframe_frame`), and reads none that the data path writes. -/
theorem discoveryAndDataPathCommute : Obligations.DiscoveryAndDataPathCommute := by
  intro s rx
  obtain ⟨u, hu⟩ := discObserve_total rx s
  have hstore : SameStore s u := by
    obtain ⟨hset, -, hslots, hmsg, hseq, hrx, -⟩ := discObserve_frame hu
    exact ⟨hset.cfg, hslots, hmsg, hseq, hrx⟩
  obtain ⟨⟨v, w⟩, ⟨v', x⟩, hw, hx, hverdict, hanswer⟩ := deframe_sameStore hstore rx
  obtain rfl : v' = v := hverdict
  obtain ⟨hsetU, hsendU, -, -, -, -, hrawU⟩ := discObserve_frame hu
  obtain ⟨hsetW, hsendW, hstateW, hwaitW, hrawW⟩ := deframe_frame hw
  obtain ⟨hsetX, hsendX, hstateX, hwaitX, hrawX⟩ := deframe_frame hx
  have hsettings := hsetW.symm.trans (hsetU.trans hsetX)
  have hsend := hsendW.symm.trans (hsendU.trans hsendX)
  have hsame : x = { w with discState := u.discState, discWait := u.discWait } :=
    State.eq_of_sides { hsettings with } { hsend with }
      ⟨hanswer.slots, hanswer.lastMsg, hanswer.lastSeq, hanswer.msgRx, (hrawX.trans hrawU).trans hrawW.symm, hstateX⟩
      hwaitX
  refine ⟨u, v', w, x, hu, hw, hx, ?_⟩
  rw [hsame]
  exact discObserve_of_sameDisc hu hstateW hsendW.discPending hwaitW hsetW.discTimeout

/-! ### Ages -/

/-- R143 with a non-zero time-to-live: a bucket that ageing keeps is younger than it. -/
theorem age_lt_of_ageBuckets {s : State} (httl : s.bucketTtl ≠ 0#32) {b : Bucket} (hb : b ∈ (ageBuckets s).buckets) :
    b.age.toNat < s.bucketTtl.toNat := by
  obtain ⟨o, -, ho⟩ := List.mem_map.mp (mem_buckets.mp hb)
  cases o with
  | none => cases ho
  | some c =>
    rw [ageSlot] at ho
    split_ifs at ho with hexpired
    cases ho
    exact not_le.mp fun hle => hexpired ⟨httl, hle⟩

/-- The data path changes no age, and a new bucket has age 0 (R159, R163). -/
theorem deframe_ages {rx : List Byte} {s t : State} {v : Verdict} {ttl : Nat} (h : deframe rx s = .ok (v, t))
    (httl : 0 < ttl) (hs : ∀ b ∈ s.buckets, b.age.toNat < ttl) : ∀ b ∈ t.buckets, b.age.toNat < ttl := by
  have hset : ∀ (k : Nat) (o : Slot), (∀ b, o = some b → b.age.toNat < ttl) →
      ∀ b ∈ (s.setSlot k o).buckets, b.age.toNat < ttl := by
    intro k o ho b hb
    rcases List.mem_or_eq_of_mem_set (mem_buckets.mp hb) with hb | hb
    · exact hs b (mem_buckets.mpr hb)
    · exact ho b hb.symm
  rcases deframe_cases h with ⟨-, rfl⟩ | ⟨f, -, -, -, ⟨-, -, rfl⟩ | ⟨-, k, b, hb, -, ⟨-, -, rfl⟩ | ⟨-, -, rfl⟩⟩⟩
  · exact hs
  · intro b hb
    obtain ⟨o, ho, hob⟩ := List.mem_map.mp (mem_buckets.mp hb)
    cases o with
    | none => cases hob
    | some c =>
      simp only at hob
      split_ifs at hob
      cases hob
      exact hs _ (mem_buckets.mpr ho)
  · exact hset k none fun _ hc => by cases hc
  · refine hset k _ ?_
    rintro _ ⟨⟩
    rcases hb with ⟨hlookup, -⟩ | ⟨-, -, rfl⟩
    · exact hs b (mem_buckets.mpr (List.mem_of_getElem? (lookupSlot_eq_some.mp hlookup).1))
    · exact httl

/-- Settles O24: ageing leaves the buckets younger than the time-to-live, and no later phase changes an age. -/
theorem runningTickLeavesAgesBelowTtl : Obligations.RunningTickLeavesAgesBelowTtl := by
  intro s rx hen httl
  refine ⟨fun b => age_lt_of_ageBuckets httl, ?_⟩
  obtain ⟨t, htick⟩ := tick_total rx s
  obtain ⟨u, v, w, hu, hw, ht⟩ := runTick_cases (runTick_of_running hen htick)
  refine ⟨t, exec_tick_of_ok htick, fun b hb => ?_⟩
  have hpos : 0 < s.bucketTtl.toNat := Nat.pos_of_ne_zero fun h => httl (BitVec.eq_of_toNat_eq h)
  have hslotsU : u.slots = (ageBuckets (s.takeRx rx)).slots := (discObserve_frame hu).2.2.1
  have hages : ∀ c ∈ u.buckets, c.age.toNat < s.bucketTtl.toNat := fun c hc =>
    age_lt_of_ageBuckets (s := s.takeRx rx) httl (mem_buckets.mpr (hslotsU ▸ mem_buckets.mp hc))
  have hslotsT : t.slots = w.slots := (outgoing_frame ht).2.slots
  exact deframe_ages hw hpos hages b (mem_buckets.mpr (hslotsT ▸ mem_buckets.mp hb))

/-! ### The last message -/

/-- Nothing is delivered: the last message, its number and the emitted messages stay. -/
structure SameDelivery (s t : State) : Prop where
  lastMsg : t.lastMsg = s.lastMsg
  lastSeq : t.lastSeq = s.lastSeq
  msgRx   : t.msgRx = s.msgRx

/-- One dispatch (R165): the number grows by one and the new last message is emitted. -/
structure Delivers (s t : State) : Prop where
  lastSeq : t.lastSeq = s.lastSeq + 1#32
  msgRx   : t.msgRx = s.msgRx ++ [t.lastMsg]

theorem deframe_delivery {rx : List Byte} {s t : State} {v : Verdict} (h : deframe rx s = .ok (v, t)) :
    SameDelivery s t ∨ Delivers s t := by
  rcases deframe_cases h with ⟨-, rfl⟩ | ⟨f, -, -, -, ⟨-, -, rfl⟩ | ⟨-, k, b, -, -, ⟨-, -, rfl⟩ | ⟨-, -, rfl⟩⟩⟩
  · exact .inl ⟨rfl, rfl, rfl⟩
  · exact .inr ⟨rfl, rfl⟩
  · exact .inr ⟨rfl, rfl⟩
  · exact .inl ⟨rfl, rfl, rfl⟩

/-- Only the data path of a running TICK delivers (R140). -/
theorem tick_delivery {rx : List Byte} {s t : State} (h : tick rx s = .ok t) :
    SameDelivery s t ∨ (s.en = true ∧ Delivers s t) := by
  cases hen : s.en with
  | false =>
    cases (tick_of_stopped rx hen).symm.trans h
    exact .inl ⟨rfl, rfl, rfl⟩
  | true =>
    obtain ⟨u, v, w, hu, hw, ht⟩ := runTick_cases (runTick_of_running hen h)
    obtain ⟨-, -, -, hmsgU, hseqU, hrxU, -⟩ := discObserve_frame hu
    have hrecv := (outgoing_frame ht).2
    rcases deframe_delivery hw with ⟨hmsg, hseq, hrx⟩ | ⟨hseq, hrx⟩
    · exact .inl ⟨(hrecv.lastMsg.trans hmsg).trans hmsgU, (hrecv.lastSeq.trans hseq).trans hseqU,
        (hrecv.msgRx.trans hrx).trans hrxU⟩
    · refine .inr ⟨rfl, ⟨?_, ?_⟩⟩
      · rw [hrecv.lastSeq, hseq, hseqU]
        rfl
      · rw [hrecv.msgRx, hrx, hrxU, hrecv.lastMsg]
        rfl

/-- SOFT_RESET is the only command that touches the last message (R211). -/
theorem command_delivery (v : Word) (s : State) : SameDelivery s (command v s) ∨
    (cmdOpc v = 0x05#8 ∧ command v s = s.softReset) := by
  rcases command_cases v s with ⟨-, e⟩ | ⟨-, e⟩ | ⟨-, e⟩ | ⟨-, e⟩ | ⟨-, e⟩ | ⟨hopc, e⟩ | ⟨-, e⟩ | ⟨-, e⟩
  case inr.inr.inr.inr.inr.inl => exact .inr ⟨hopc, e⟩
  all_goals
    rw [e]
    exact .inl ⟨rfl, rfl, rfl⟩

theorem writeReg_delivery (off : Offset) (v : Word) (s : State) : SameDelivery s (writeReg off v s) ∨
    (off = 0x0000#15 ∧ cmdOpc v = 0x05#8 ∧ writeReg off v s = s.softReset) := by
  rcases writeReg_cases off v s with ⟨hoff, e⟩ | ⟨-, e⟩ | ⟨-, e⟩ | ⟨-, e⟩ | ⟨-, e⟩ | ⟨-, -, -, -, -, e⟩
  · rw [e]
    exact (command_delivery v s).imp_right fun h => ⟨hoff, h⟩
  · rw [e, writeStatus_eq]
    exact .inl ⟨rfl, rfl, rfl⟩
  all_goals
    rw [e]
    exact .inl ⟨rfl, rfl, rfl⟩

/-- Settles O32: of the effects of an instruction a TICK may deliver, RESET and the SOFT_RESET command clear, and no
other touches the last message. -/
theorem lastMessageMovesOnlyByDispatchOrReset : Obligations.LastMessageMovesOnlyByDispatchOrReset := by
  intro i s t h
  cases exec_effect h with
  | reset hi => exact .inr (.inr ⟨.inl hi, rfl, rfl, rfl⟩)
  | tick rx _ hi ht =>
    rcases tick_delivery ht with ⟨hmsg, hseq, hrx⟩ | ⟨hen, hseq, hrx⟩
    · exact .inl ⟨hmsg, hseq, hrx⟩
    · exact .inr (.inl ⟨⟨rx, hi⟩, hen, hseq, hrx⟩)
  | submit m =>
    obtain ⟨q, e⟩ := submit_eq_setTxq m s
    rw [e]
    exact .inl ⟨rfl, rfl, rfl⟩
  | write off v hi =>
    rcases writeReg_delivery off v s with ⟨hmsg, hseq, hrx⟩ | ⟨rfl, hopc, e⟩
    · exact .inl ⟨hmsg, hseq, hrx⟩
    · rw [e]
      exact .inr (.inr ⟨.inr ⟨v, hi, hopc⟩, rfl, rfl, rfl⟩)
  | read | badOpcode | ignored => exact .inl ⟨rfl, rfl, rfl⟩

/-! ### What an event adds to the ports -/

/-- What one event may add to each port (R65). -/
structure PortsGrow (s t : State) : Prop where
  tx    : ∃ sent, t.txRaw = s.txRaw ++ sent ∧
    (∀ b ∈ sent, b.length = 64 ∧ (getLe16 b 0 = 0x0002#16 ∨ getLe16 b 0 = 0x0001#16)) ∧
    (sent.filter fun b => getLe16 b 0 == 0x0002#16).length ≤ 1 ∧
    (sent.filter fun b => getLe16 b 0 == 0x0001#16).length ≤ 255
  msg   : ∃ got, t.msgRx = s.msgRx ++ got ∧ got.length ≤ 1 ∧ ∀ m ∈ got, WholeMessage s.cfg m
  rx    : ∃ read, t.rxRaw = s.rxRaw ++ read ∧ read.length ≤ 1 ∧ [] ∉ read
  reply : ∃ said, t.replies = s.replies ++ said ∧ said.length ≤ 1

/-- No port but the answers grows. -/
theorem portsGrow_of_reply {s t : State} {said : List Reply} (htx : t.txRaw = s.txRaw) (hmsg : t.msgRx = s.msgRx)
    (hrx : t.rxRaw = s.rxRaw) (hreply : t.replies = s.replies ++ said) (hone : said.length ≤ 1) : PortsGrow s t where
  tx := ⟨[], by simp [htx]⟩
  msg := ⟨[], by simp [hmsg]⟩
  rx := ⟨[], by simp [hrx]⟩
  reply := ⟨said, hreply, hone⟩

theorem SamePorts.grow {s t : State} (h : SamePorts s t) : PortsGrow s t :=
  portsGrow_of_reply h.txRaw h.msgRx h.rxRaw (said := []) (by simp [h.replies]) (Nat.zero_le 1)

/-- What goes out (R184): a request and data frames, told apart by their preambles. -/
structure EmittedBounds (request frames : List (List Byte)) : Prop where
  requestBytes : ∀ b ∈ request, b.length = 64 ∧ getLe16 b 0 = 0x0002#16
  framesBytes  : ∀ b ∈ frames, b.length = 64 ∧ getLe16 b 0 = 0x0001#16
  requestCount : request.length ≤ 1
  framesCount  : frames.length ≤ 255

theorem fragments_preamble {dst : Byte} {id : Word} {m : List Byte} {f : Frame} (h : f ∈ fragments dst id m) :
    f.preamble = Config.preData := by
  obtain ⟨i, -, rfl⟩ := List.mem_map.mp h
  rfl

theorem Emitted.bounds {s : State} {request frames : List (List Byte)} (h : Emitted s request frames)
    (hq : ∀ m ∈ s.txq, m.length ≤ 12750) : EmittedBounds request frames := by
  obtain ⟨hrequest, hframes⟩ := h
  refine ⟨fun b hb => ?_, fun b hb => ?_, ?_, ?_⟩
  · rcases hrequest with ⟨-, rfl⟩ | ⟨-, rfl⟩
    · cases hb
    · rw [List.mem_singleton.mp hb]
      exact ⟨wireOf_length (Nat.zero_le 50), getLe16_wireOf _⟩
  · rcases hframes with ⟨-, rfl⟩ | ⟨m, rest, id, -, rfl⟩
    · cases hb
    · obtain ⟨f, hf, rfl⟩ := List.mem_map.mp hb
      exact ⟨wireOf_length (fragments_fit f hf), (getLe16_wireOf f).trans (fragments_preamble hf)⟩
  · rcases hrequest with ⟨-, rfl⟩ | ⟨-, rfl⟩ <;> simp
  · rcases hframes with ⟨-, rfl⟩ | ⟨m, rest, id, hm, rfl⟩
    · exact Nat.zero_le _
    · rw [List.length_map, fragments_length]
      exact fragmentCount_le (hq m (hm ▸ List.mem_cons_self))

/-- Frames of one preamble are none of another. -/
theorem filter_preamble_eq_nil {frames : List (List Byte)} {p q : Half} (hpq : p ≠ q)
    (h : ∀ b ∈ frames, getLe16 b 0 = p) : (frames.filter fun b => getLe16 b 0 == q) = [] :=
  List.filter_eq_nil_iff.mpr fun b hb => by simp [h b hb, hpq]

theorem EmittedBounds.tx {request frames : List (List Byte)} (h : EmittedBounds request frames) :
    (∀ b ∈ request ++ frames, b.length = 64 ∧ (getLe16 b 0 = 0x0002#16 ∨ getLe16 b 0 = 0x0001#16)) ∧
    ((request ++ frames).filter fun b => getLe16 b 0 == 0x0002#16).length ≤ 1 ∧
    ((request ++ frames).filter fun b => getLe16 b 0 == 0x0001#16).length ≤ 255 := by
  refine ⟨fun b hb => ?_, ?_, ?_⟩
  · rcases List.mem_append.mp hb with hb | hb
    · exact ⟨(h.requestBytes b hb).1, .inl (h.requestBytes b hb).2⟩
    · exact ⟨(h.framesBytes b hb).1, .inr (h.framesBytes b hb).2⟩
  · rw [List.filter_append, filter_preamble_eq_nil (by decide) fun b hb => (h.framesBytes b hb).2, List.append_nil]
    exact (List.length_filter_le _ _).trans h.requestCount
  · rw [List.filter_append, filter_preamble_eq_nil (by decide) fun b hb => (h.requestBytes b hb).2, List.nil_append]
    exact (List.length_filter_le _ _).trans h.framesCount

theorem Received.msgRx {s t : State} (h : Received s t) :
    ∃ got, t.msgRx = s.msgRx ++ got ∧ got.length ≤ 1 ∧ ∀ m ∈ got, WholeMessage s.cfg m := by
  obtain ⟨slots, -, rfl | ⟨m, hm, rfl⟩⟩ := h
  · exact ⟨[], by simp⟩
  · exact ⟨[m], rfl, le_rfl, fun m' hm' => List.mem_singleton.mp hm' ▸ hm⟩

/-- A running TICK records its block, unless there is none (R63). -/
theorem takeRx_rxRaw_grow (s : State) (rx : List Byte) :
    ∃ read, (s.takeRx rx).rxRaw = s.rxRaw ++ read ∧ read.length ≤ 1 ∧ [] ∉ read := by
  by_cases h : rx = []
  · exact ⟨[], by simp [State.takeRx, h]⟩
  · exact ⟨[rx], by simp [State.takeRx, h, Ne.symm h]⟩

theorem tick_grow {rx : List Byte} {s t : State} (h : s.Inv) (htick : tick rx s = .ok t) : PortsGrow s t := by
  cases hen : s.en with
  | false =>
    cases (tick_of_stopped rx hen).symm.trans htick
    exact portsGrow_of_reply rfl rfl rfl (said := []) (by simp) (Nat.zero_le 1)
  | true =>
    obtain ⟨u, v, w, hu, hw, ht⟩ := runTick_cases (runTick_of_running hen htick)
    obtain ⟨hsetU, hsendU, -, -, -, hmsgU, hrawU⟩ := discObserve_frame hu
    obtain ⟨-, hsendW, -, -, hrawW⟩ := deframe_frame hw
    have hrecv := (outgoing_frame ht).2
    have hqueue : w.txq = s.txq := hsendW.txq.trans hsendU.txq
    have hsent : w.txRaw = s.txRaw := hsendW.txRaw.trans hsendU.txRaw
    obtain ⟨-, -, request, frames, htx, hemitted⟩ := outgoing_cases ht
    have hbounds := hemitted.bounds (hqueue ▸ h.messages)
    obtain ⟨got, hgot, hone, hwhole⟩ := (deframe_received (discObserve_inv (h.takeRx rx).ageBuckets hu) hw).msgRx
    obtain ⟨read, hread⟩ := takeRx_rxRaw_grow s rx
    refine ⟨⟨request ++ frames, ?_, hbounds.tx⟩, ⟨got, ?_, hone, ?_⟩, ⟨read, ?_, hread.2⟩, ⟨[], ?_, Nat.zero_le 1⟩⟩
    · rw [htx, hsent, List.append_assoc]
    · rw [hrecv.msgRx, hgot, hmsgU]
      rfl
    · rwa [hsetU.cfg] at hwhole
    · rw [hrecv.rxRaw, hrawW, hrawU, ← hread.1]
      rfl
    · rw [(tick_settings htick).replies, List.append_nil]

theorem Effect.grow {i : Instr} {s t : State} (heffect : Effect i s t) (h : s.Inv) : PortsGrow s t := by
  cases heffect with
  | tick rx _ _ ht => exact tick_grow h ht
  | submit m =>
    obtain ⟨q, e⟩ := submit_eq_setTxq m s
    rw [e]
    exact portsGrow_of_reply rfl rfl rfl rfl le_rfl
  | read x => exact portsGrow_of_reply rfl rfl rfl rfl le_rfl
  | write off v _ => exact (writeReg_samePorts off v s).grow
  | reset | badOpcode | ignored =>
    exact portsGrow_of_reply rfl rfl rfl (said := []) (List.append_nil _).symm (Nat.zero_le 1)

/-- Settles O52: a TICK adds to every port but the answers, an answered event to the answers, and no other effect adds
anything (`Effect.grow`). -/
theorem oneEventAddsBoundedOutput : Obligations.OneEventAddsBoundedOutput := by
  intro i s t h hexec
  obtain ⟨htx, hmsg, hrx, hreply⟩ := (exec_effect hexec).grow h
  exact ⟨htx, hmsg, hrx, hreply⟩

end Sys2Proof.Machine
end

section
/-! PROOFS. CRC-32 over byte sequences (spec/40_crc.md R106, R108) and the codec (spec/41_codec.md R126 to R128). -/

namespace Sys2Proof.Machine

/-! ### The CRC commands over a sequence -/

theorem runInstrs_crcBytes (hi : Half) (bs : List Byte) (s : State) :
    runInstrs (bs.map fun b => .crcByte b hi) s = .next (s.setCrcReg (crcFeed s.crcReg bs)) := by
  induction bs generalizing s with
  | nil => rfl
  | cons b bs ih =>
    rw [List.map_cons, runInstrs_cons_of_next _ (exec_crcByte b hi s), ih]
    rfl

theorem exec_rdCrcResult {s : State} {x : Word} (h : crcFinal s.crcReg = x) :
    exec .rdCrcResult s = .next (s.answer (.value x)) := by
  rw [← h]
  rfl

/-- Settles O12: CRC_INIT and RESET each set the accumulator to its initial value, and the bytes then feed it
(`runInstrs_crcBytes`). -/
theorem crcResultReadsCrcOfBytesFed : Obligations.CrcResultReadsCrcOfBytesFed := by
  intro s arg hi bs
  refine ⟨(s.setCrcReg crcInitial).setCrcReg (crcFeed crcInitial bs), ?init, rfl, exec_rdCrcResult rfl,
    s.hardReset.setCrcReg (crcFeed crcInitial bs), ?reset, exec_rdCrcResult rfl⟩
  case init => rw [runInstrs_cons_of_next _ (exec_crcInit arg hi s), runInstrs_crcBytes, State.setCrcReg_crcReg]
  case reset =>
    rw [runInstrs_cons_of_next (t := s.hardReset) _ rfl, runInstrs_crcBytes, State.hardReset_crcReg]
    rfl

/-! ### The residue -/

theorem crcBits_add (m n : Nat) (c : Word) : crcBits (m + n) c = crcBits n (crcBits m c) := by
  induction m generalizing c with
  | zero => rw [Nat.zero_add, crcBits]
  | succ m ih => rw [Nat.succ_add, crcBits, crcBits, ih]

/-- Eight bits of a register with a word in it: the word's low byte is stepped in, the rest of the word only shifts. -/
theorem crcBits_xor_word (c x : Word) : crcBits 8 (c ^^^ x) = crcStep c (x.extractLsb' 0 8) ^^^ (x >>> 8) := by
  have hlow : ∀ i < 8, ((x >>> 8) <<< 8).getLsbD i = false := fun i hi => by simp [hi]
  have hsplit : x = (x.extractLsb' 0 8).setWidth 32 ^^^ ((x >>> 8) <<< 8) := by
    ext i hi
    interval_cases i <;> simp
  have hshift : ((x >>> 8) <<< 8) >>> 8 = x >>> 8 := by
    ext i hi
    interval_cases i <;> simp
  calc crcBits 8 (c ^^^ x)
    _ = crcBits 8 ((c ^^^ (x.extractLsb' 0 8).setWidth 32) ^^^ ((x >>> 8) <<< 8)) := by
      rw [BitVec.xor_assoc, ← hsplit]
    _ = crcStep c (x.extractLsb' 0 8) ^^^ (x >>> 8) := by rw [crcBits_xor, crcBits_shift hlow, hshift, crcStep]

/-- Feeding a word, low byte first, is 32 bits of the register with the word in it (R101). -/
theorem crcFeed_le32 (c x : Word) : crcFeed c (le32 x) = crcBits 32 (c ^^^ x) := by
  have h1 : (x >>> 8).extractLsb' 0 8 = x.extractLsb' 8 8 := by ext i hi; simp
  have h2 : (x >>> 8 >>> 8).extractLsb' 0 8 = x.extractLsb' 16 8 := by ext i hi; simp
  have h3 : (x >>> 8 >>> 8 >>> 8).extractLsb' 0 8 = x.extractLsb' 24 8 := by ext i hi; simp
  have h4 : x >>> 8 >>> 8 >>> 8 >>> 8 = 0#32 := by
    rw [← BitVec.shiftRight_add, ← BitVec.shiftRight_add, ← BitVec.shiftRight_add]
    exact BitVec.ushiftRight_eq_zero (by decide)
  calc crcFeed c (le32 x)
    _ = crcStep (crcStep (crcStep (crcStep c (x.extractLsb' 0 8)) (x.extractLsb' 8 8)) (x.extractLsb' 16 8))
          (x.extractLsb' 24 8) := rfl
    _ = crcBits 8 (crcBits 8 (crcBits 8 (crcBits 8 (c ^^^ x)))) := by
      rw [crcBits_xor_word c x, crcBits_xor_word _ (x >>> 8), crcBits_xor_word _ (x >>> 8 >>> 8),
        crcBits_xor_word _ (x >>> 8 >>> 8 >>> 8), h1, h2, h3, h4, BitVec.xor_zero]
    _ = crcBits 32 (c ^^^ x) := by rw [← crcBits_add, ← crcBits_add, ← crcBits_add]

theorem xor_crcFinal (c : Word) : c ^^^ crcFinal c = 0xFFFFFFFF#32 := by
  rw [crcFinal, ← BitVec.xor_assoc, BitVec.xor_self, BitVec.zero_xor]

theorem crcBits_ones : crcBits 32 0xFFFFFFFF#32 = 0xDEBB20E3#32 := by simp [crcBits, crcBit, crcPoly]

/-- After its own CRC every sequence leaves the same register (R108). -/
theorem crcFeed_residue (bs : List Byte) : crcFeed crcInitial (bs ++ le32 (crc32 bs)) = 0xDEBB20E3#32 := by
  rw [crcFeed_append, crcFeed_le32, crc32, xor_crcFinal, crcBits_ones]

/-- Settles O13: the register is the residue (`crcFeed_residue`), and the CRC its final exclusive-or. -/
theorem crcResidueIsConstant : Obligations.CrcResidueIsConstant := by
  refine fun bs => ⟨?_, crcFeed_residue bs⟩
  rw [crc32, crcFeed_residue]
  rfl

/-! ### Received validity -/

/-- Settles O18: the body and the CRC of a decoded frame are its block's bytes (`isValid_of_decode_bytes`). -/
theorem receivedValidityIsCrcOfSixtyBytes : Obligations.ReceivedValidityIsCrcOfSixtyBytes := by
  intro b hlen
  obtain ⟨f, hdec⟩ := decode_of_length hlen
  exact ⟨f, hdec, isValid_of_decode_bytes hdec⟩

/-- Settles O19: the encoding decodes to `receivedFrame`, whose CRC the block's last four bytes are. -/
theorem encodeDecodeRoundTrip : Obligations.EncodeDecodeRoundTrip := by
  intro f hfits
  obtain ⟨-, hcrc⟩ := body_of_decode (decode_wireOf hfits)
  have hstored : getLe32 (wireOf f) 60 = crc32 (frameBody f) := hcrc.symm
  refine ⟨wireOf f, receivedFrame f, encodeFrame_ok hfits, decode_wireOf hfits, ?_, ?_, isValid_receivedFrame hfits⟩
  · rw [hstored]
    rfl
  · rw [hstored, slice_wireOf hfits]

/-! ### Single bit flips -/

/-- A valid block leaves the residue in the register, and no other block of its length does (R108). -/
theorem isValid_iff_residue {b : List Byte} {f : Frame} (hdec : Frame.decode b = .ok f) :
    isValid f = .ok true ↔ crcFeed crcInitial b = 0xDEBB20E3#32 := by
  obtain ⟨hwire, -, hpay⟩ := toWire_of_decode hdec
  have hfeed : crcFeed crcInitial b = crcBits 32 (crcFeed crcInitial (frameBody f) ^^^ f.crc) := by
    rw [← hwire, toWire_eq_body hpay, crcFeed_append, crcFeed_le32]
  rw [isValid_of_decode hdec, hfeed, ← crcBits_ones, Except.ok.injEq, beq_iff_eq, ← xor_crcFinal (crcFeed crcInitial _)]
  constructor
  · intro h
    rw [← h, crc32]
  · intro h
    exact ((BitVec.xor_right_inj _).mp (crcBits_injective h)).symm

/-- Changing one byte of a sequence changes the register it leaves. -/
theorem crcFeed_set_ne (c : Word) {b : List Byte} {k : Nat} {d : Byte} (hk : k < b.length) (hd : d ≠ byteAt b k) :
    crcFeed c (b.set k d) ≠ crcFeed c b := by
  intro h
  have hbyte : byteAt b k = b[k] := byteAt_of_lt hk
  have hsplit : b = b.take k ++ b[k] :: b.drop (k + 1) := by rw [← List.drop_eq_getElem_cons hk, List.take_append_drop]
  rw [List.set_eq_take_append_cons_drop, if_pos hk] at h
  conv at h => rhs; rw [hsplit]
  rw [crcFeed_append, crcFeed_append, crcFeed_cons, crcFeed_cons] at h
  exact hd (hbyte ▸ crcStep_injective_byte (crcFeed_injective_register h))

theorem xor_twoPow_ne (d : Byte) {k : Nat} (hk : k < 8) : d ^^^ BitVec.twoPow 8 k ≠ d := by
  intro h
  have hbit := congrArg (BitVec.getLsbD · k) h
  simp [hk] at hbit

/-- Settles O14: one flipped bit changes one byte, so the register does not end in the residue. -/
theorem crcDetectsEverySingleBitFlip : Obligations.CrcDetectsEverySingleBitFlip := by
  intro b f i hdec hvalid hi
  have hlen := decode_length hdec
  have hne : crcFeed crcInitial (flipBit b i) ≠ crcFeed crcInitial b :=
    crcFeed_set_ne _ (by omega) (xor_twoPow_ne _ (by omega))
  obtain ⟨g, hg⟩ := decode_of_length (b := flipBit b i) (by rw [flipBit, List.length_set, hlen])
  refine ⟨g, hg, ?_⟩
  have hbad : isValid g ≠ .ok true := by
    rw [Ne, isValid_iff_residue hg, ← (isValid_iff_residue hdec).mp hvalid]
    exact hne
  rw [isValid_of_decode hg] at hbad ⊢
  cases h : crc32 (frameBody g) == g.crc
  · rfl
  · exact absurd (congrArg Except.ok h) hbad

end Sys2Proof.Machine
end

section
/-! PROOFS. What the host reads (spec/45_control.md R200, R202; spec/70_reset_and_hazards.md R254), and reception by
address (spec/43_deframer.md R155, R170). -/

namespace Sys2Proof.Machine

/-! ### The read rows -/

/-- Settles O41: each row is one `answer` of its register's value. -/
theorem readRowsAnswerTheirRegister : Obligations.ReadRowsAnswerTheirRegister :=
  fun _ _ => ⟨rfl, rfl, rfl, rfl, rfl, rfl, rfl, rfl, rfl, rfl, rfl, rfl⟩

/-! ### STATUS -/

/-- The two bits of the discovery code (R34). -/
def DiscState.field : DiscState → BitVec 2
  | .idle => 0#2
  | .wait => 1#2
  | .ok => 2#2
  | .fail => 3#2

theorem code_eq_field (d : DiscState) : d.code = d.field.setWidth 32 := by
  cases d <;> rfl

/-- STATUS by its fields (R202), where the counts fit theirs. -/
theorem statusWord_fields {s : State} {used queued : Nat} (hused : s.bucketsUsed = used)
    (hqueued : s.txq.length = queued) (h1 : used ≤ 255) (h2 : queued ≤ 65535) :
    (statusWord s).getLsbD 0 = s.en ∧ (statusWord s).getLsbD 1 = s.cmdErr ∧
    (statusWord s).extractLsb' 2 2 = s.discState.field ∧ (statusWord s).getLsbD 4 = s.discPending ∧
    (statusWord s).extractLsb' 5 3 = 0#3 ∧
    (statusWord s).extractLsb' 8 8 = BitVec.ofNat 8 used ∧
    (statusWord s).extractLsb' 16 16 = BitVec.ofNat 16 queued := by
  have hlow : BitVec.ofNat 32 used = (BitVec.ofNat 8 used).setWidth 32 := by
    apply BitVec.eq_of_toNat_eq
    simp only [BitVec.toNat_ofNat, BitVec.toNat_setWidth]
    omega
  have hhigh : BitVec.ofNat 32 queued = (BitVec.ofNat 16 queued).setWidth 32 := by
    apply BitVec.eq_of_toNat_eq
    simp only [BitVec.toNat_ofNat, BitVec.toNat_setWidth]
    omega
  unfold statusWord flagWord
  rw [hused, hqueued, hlow, hhigh, code_eq_field]
  generalize BitVec.ofNat 8 used = u, BitVec.ofNat 16 queued = q, s.discState.field = d
  refine ⟨?_, ?_, ?_, ?_, ?_, ?_, ?_⟩
  · simp
  · simp
  · ext i hi; interval_cases i <;> simp
  · simp
  · ext i hi; interval_cases i <;> simp
  · ext i hi; interval_cases i <;> simp
  · ext i hi; interval_cases i <;> simp

/-- Settles O42: the fields of STATUS by `statusWord_fields`, those of CONFIG by `configWord_fields`. -/
theorem statusAndConfigFields : Obligations.StatusAndConfigFields := by
  intro s hused hqueued
  obtain ⟨hen, herr, hdisc, hpending, hzero, hlow, hhigh⟩ := statusWord_fields rfl rfl hused hqueued
  obtain ⟨hnb, hmax, htxq⟩ := configWord_fields s.cfg
  refine ⟨hen, herr, hdisc.trans ?_, hpending, hzero, ?_, ?_, hnb, hmax, htxq⟩
  · cases s.discState <;> rfl
  · rw [hlow, BitVec.toNat_ofNat]
    omega
  · rw [hhigh, BitVec.toNat_ofNat]
    omega

/-! ### The LAST_DATA window -/

/-- `4n` bytes read four at a time. -/
theorem flatMap_le32_getLe32 (m : List Byte) (n : Nat) :
    (List.range n).flatMap (fun j => le32 (getLe32 m (4 * j))) = (List.range (4 * n)).map (byteAt m) := by
  induction n with
  | zero => rfl
  | succ n ih =>
    rw [List.range_succ, List.flatMap_append, ih, List.flatMap_singleton, le32_getLe32, Nat.mul_succ, List.range_add,
      List.map_append]
    rfl

theorem map_byteAt_range (m : List Byte) : (List.range m.length).map (byteAt m) = m := by
  refine List.ext_getElem (by simp) fun i _ hi => ?_
  rw [List.getElem_map, List.getElem_range, byteAt_of_lt hi]

/-- The word at `0x4000 + 4j` is the message's `j`-th (R52). -/
theorem readReg_lastData {j : Nat} (s : State) (hj : j < 4096) :
    readReg (BitVec.ofNat 15 (0x4000 + 4 * j)) s = getLe32 s.lastMsg (4 * j) := by
  have hoff : (BitVec.ofNat 15 (0x4000 + 4 * j)).toNat = 0x4000 + 4 * j := by
    rw [BitVec.toNat_ofNat]
    omega
  rw [readReg_window s ((aligned_iff _).mpr (by omega)) (by omega), hoff, Nat.add_sub_cancel_left, lastDataWord]

/-- Settles O43: the words read are the message's bytes four at a time, and the last word's excess is cut off. -/
theorem lastMessageReadsBackWhole : Obligations.LastMessageReadsBackWhole := by
  intro s hlen
  have hcount : ceilDiv s.lastMsg.length 4 ≤ 4096 ∧ s.lastMsg.length ≤ 4 * ceilDiv s.lastMsg.length 4 := by
    unfold ceilDiv
    omega
  have hwords : ∀ j ∈ List.range (ceilDiv s.lastMsg.length 4),
      le32 (readReg (BitVec.ofNat 15 (0x4000 + 4 * j)) s) = le32 (getLe32 s.lastMsg (4 * j)) := fun j hj => by
    have hlt := List.mem_range.mp hj
    rw [readReg_lastData s (by omega)]
  rw [List.flatMap_congr hwords, flatMap_le32_getLe32, ← List.map_take, List.take_range, Nat.min_eq_left hcount.2,
    map_byteAt_range]

/-! ### Reception by address -/

theorem addressKind_of_toNat (a : Byte) :
    (a.toNat = 0x00 → addressKind a = .broadcast) ∧ (a.toNat = 0x01 → addressKind a = .host) ∧
    (0x02 ≤ a.toNat → a.toNat ≤ 0x7F → addressKind a = .device) ∧ (0x80 ≤ a.toNat → addressKind a = .unassigned) := by
  have hbcast : a = Config.addrBcast ↔ a.toNat = 0 := BitVec.toNat_inj.symm
  have hhost : a = Config.addrHost ↔ a.toNat = 1 := BitVec.toNat_inj.symm
  have hfirst : Config.deviceFirst.toNat = 2 := rfl
  have hlast : Config.deviceLast.toNat = 127 := rfl
  unfold addressKind
  rw [hfirst, hlast]
  simp only [hbcast, hhost]
  refine ⟨fun h => ?_, fun h => ?_, fun h1 h2 => ?_, fun h => ?_⟩
  · rw [if_pos h]
  · rw [if_neg (by omega), if_pos h]
  · rw [if_neg (by omega), if_neg (by omega), if_pos ⟨h1, h2⟩]
  · rw [if_neg (by omega), if_neg (by omega), if_neg (by omega)]

/-- What the data path does with an encoded frame (R127, R153). -/
theorem deframe_wireOf {f : Frame} (s : State) (h : f.payload.length ≤ 50) :
    deframe (wireOf f) s = .ok (filterFrame (receivedFrame f) s) :=
  deframe_of_valid s (decode_wireOf h) (isValid_receivedFrame h)

theorem eq_wireOf_of_encodeFrame {f : Frame} {bs : List Byte} (h : encodeFrame f = .ok bs) :
    f.payload.length ≤ 50 ∧ bs = wireOf f := by
  by_cases hfits : f.payload.length ≤ 50
  · cases (encodeFrame_ok hfits).symm.trans h
    exact ⟨hfits, rfl⟩
  · cases (encodeFrame_oversize (not_le.mp hfits)).symm.trans h

/-- Settles O58: the destination filter passes the host's address alone, and the filters read neither the source nor
the stored CRC of a valid frame. -/
theorem receptionIsByDestinationAddress : Obligations.ReceptionIsByDestinationAddress := by
  refine ⟨addressKind_of_toNat, fun rx f s hdec hvalid hpre hkind => ?dest, fun f src s here there hhere hthere => ?src⟩
  case dest =>
    rw [deframe_of_valid s hdec hvalid, filterFrame_not_host s hpre (mt (addressKind_eq_host_iff _).mpr hkind)]
  case src =>
    obtain ⟨hfits, rfl⟩ := eq_wireOf_of_encodeFrame hhere
    obtain ⟨-, rfl⟩ := eq_wireOf_of_encodeFrame hthere
    rw [deframe_wireOf s hfits, deframe_wireOf (f := { f with src := src }) s hfits]
    rfl

end Sys2Proof.Machine
end

section
/-! PROOFS. Reassembly (spec/43_deframer.md R166): the fragments of a message deliver it once, in whatever order they
come. -/

namespace Sys2Proof.Machine

/-! ### Blocks one after another -/

theorem feedAll_cons {rx : List Byte} {s t : State} {v : Verdict} (rest : List (List Byte))
    (h : deframe rx s = .ok (v, t)) : feedAll (rx :: rest) s = feedAll rest t := by
  rw [feedAll, h]

/-- Blocks that end in a state, and one more from there. -/
theorem feedAll_concat {blocks : List (List Byte)} {rx : List Byte} {s t u : State} {v : Verdict}
    (h : feedAll blocks s = .ok t) (hrx : deframe rx t = .ok (v, u)) : feedAll (blocks ++ [rx]) s = .ok u := by
  induction blocks generalizing s with
  | nil =>
    cases h
    exact feedAll_cons [] hrx
  | cons b blocks ih =>
    obtain ⟨v', w, hw⟩ := deframe_total b s
    rw [feedAll_cons blocks hw] at h
    rw [List.cons_append, feedAll_cons _ hw, ih h]

/-! ### The bucket of some fragments -/

/-- The bucket that holds the fragments `is` (numbered from 0) of message `m`, stored in this order. -/
def collected (id : Word) (m : List Byte) (is : List Nat) : Bucket :=
  is.foldl (fun b i => b.store (i + 1) (padded (messageSlice m i)))
    { frameId := id, total := BitVec.ofNat 8 (fragmentCount m), frags := [], age := 0#32 }

section

variable (id : Word) (m : List Byte) (is : List Nat)

theorem collected_concat (i : Nat) :
    collected id m (is ++ [i]) = (collected id m is).store (i + 1) (padded (messageSlice m i)) := by
  rw [collected, List.foldl_concat]
  rfl

theorem collected_frameId_total :
    (collected id m is).frameId = id ∧ (collected id m is).total = BitVec.ofNat 8 (fragmentCount m) := by
  induction is using List.reverseRecOn with
  | nil => exact ⟨rfl, rfl⟩
  | append_singleton is i ih =>
    rw [collected_concat]
    exact ih

theorem collected_rising : (collected id m is).held.Pairwise (· < ·) := by
  induction is using List.reverseRecOn with
  | nil => exact .nil
  | append_singleton is i ih =>
    rw [collected_concat]
    exact store_rising ih

theorem mem_collected_held (i : Nat) : i + 1 ∈ (collected id m is).held ↔ i ∈ is := by
  induction is using List.reverseRecOn with
  | nil => exact iff_of_false List.not_mem_nil List.not_mem_nil
  | append_singleton is j ih =>
    rw [collected_concat, mem_store_held, ih, List.mem_append, List.mem_singleton, Nat.add_right_cancel_iff, or_comm]

theorem zero_notMem_collected_held : 0 ∉ (collected id m is).held := by
  induction is using List.reverseRecOn with
  | nil => exact List.not_mem_nil
  | append_singleton is j ih =>
    rw [collected_concat, mem_store_held]
    simp [ih]

theorem collected_frag {i : Nat} (h : i ∈ is) : (collected id m is).frag (i + 1) = padded (messageSlice m i) := by
  induction is using List.reverseRecOn with
  | nil => cases h
  | append_singleton is j ih =>
    rw [collected_concat, store_frag (collected_rising id m is)]
    by_cases hij : i = j
    · rw [if_pos (by rw [hij]), hij]
    · rw [if_neg (by omega)]
      exact ih ((List.mem_append.mp h).resolve_right (by simpa using hij))

end

/-- R181: the total fits its byte. -/
theorem collected_total_toNat (id : Word) {m : List Byte} (is : List Nat) (hlen : m.length ≤ 12750) :
    (collected id m is).total.toNat = fragmentCount m := by
  have hcount := fragmentCount_le hlen
  rw [(collected_frameId_total id m is).2, BitVec.toNat_ofNat]
  omega

/-- The padded slices joined are the message and the padding of the last (R75, R186). -/
theorem flatMap_padded_all (m : List Byte) :
    (List.range (fragmentCount m)).flatMap (fun i => padded (messageSlice m i)) =
    m ++ zeros (50 * fragmentCount m - m.length) := by
  rw [flatMap_padded_slices, List.take_of_length_le (length_le_fragmentCount m)]

theorem collected_complete (id : Word) {m : List Byte} {is : List Nat} (hlen : m.length ≤ 12750)
    (hall : ∀ i, i ∈ is ↔ i < fragmentCount m) : (collected id m is).complete = true := by
  refine (complete_iff _).mpr (rising_eq_range' (collected_rising id m is) fun j => ?_)
  rw [collected_total_toNat id is hlen]
  cases j with
  | zero => exact iff_of_false (zero_notMem_collected_held id m is) (by omega)
  | succ i =>
    rw [mem_collected_held, hall]
    omega

/-- The message of a full bucket, whatever the order of `is` (R164). -/
theorem collected_message (id : Word) {m : List Byte} {is : List Nat} (hlen : m.length ≤ 12750)
    (hall : ∀ i, i ∈ is ↔ i < fragmentCount m) :
    (collected id m is).message = m ++ zeros (50 * fragmentCount m - m.length) := by
  rw [← flatMap_padded_all, Bucket.message, Bucket.numbers, collected_total_toNat id is hlen,
    List.range'_eq_map_range, List.flatMap_map]
  refine List.flatMap_congr fun i hi => ?_
  rw [Nat.add_comm, collected_frag id m is ((hall i).mpr (List.mem_range.mp hi))]

/-! ### One fragment -/

/-- Fragment `i` of `m` as the host receives it. -/
def arrival (id : Word) (m : List Byte) (i : Nat) : Frame := receivedFrame (fragment 0x01#8 id m i)

/-- Fragment `i` of `m` on the wire. -/
def arrivalBlock (id : Word) (m : List Byte) (i : Nat) : List Byte := wireOf (fragment 0x01#8 id m i)

theorem arrival_acceptable {cfg : Config.Params} {m : List Byte} {i : Nat} (id : Word) (hlen : m.length ≤ 12750)
    (hmax : fragmentCount m ≤ cfg.maxFrag.toNat) (hi : i < fragmentCount m) : Acceptable cfg (arrival id m i) := by
  obtain ⟨horder, htotal⟩ := fragment_numbers 0x01#8 id hlen hi
  have horder' : (arrival id m i).frameOrder.toNat = i + 1 := horder
  have htotal' : (arrival id m i).frameTotal.toNat = fragmentCount m := htotal
  exact ⟨rfl, rfl, padded_length (messageSlice_length m i), by omega, by omega, by omega⟩

/-- The filters let fragment `i` through (R154 to R156). -/
theorem deframe_arrival {s : State} {m : List Byte} {i : Nat} (id : Word) (hlen : m.length ≤ 12750)
    (hmax : fragmentCount m ≤ s.cfg.maxFrag.toNat) (hi : i < fragmentCount m) :
    deframe (arrivalBlock id m i) s = .ok (if (arrival id m i).frameTotal = 1#8
      then (.single, singleFragment (arrival id m i) s) else multiFragment (arrival id m i) s) := by
  rw [arrivalBlock, deframe_wireOf s (messageSlice_length m i)]
  exact congrArg Except.ok (filterFrame_acceptable (arrival_acceptable id hlen hmax hi))

/-! ### A message of one fragment -/

/-- R157 frees nothing where no bucket has the identifier. -/
theorem freeById_of_noBucket {s : State} {id : Word} (h : s.noBucket id) : freeById id s.slots = s.slots := by
  refine (List.map_congr_left fun o ho => ?_).trans (List.map_id _)
  cases o with
  | none => rfl
  | some b => exact if_neg (h b (mem_buckets.mpr ho))

/-- The state after the delivery of message `m`: 50 bytes a fragment, and every slot as before (R166). -/
def State.delivered (s : State) (m : List Byte) : State :=
  s.dispatch (m ++ zeros (50 * fragmentCount m - m.length))

theorem deframe_only_fragment {s : State} {m : List Byte} {id : Word} (hlen : m.length ≤ 12750)
    (hmax : fragmentCount m ≤ s.cfg.maxFrag.toNat) (hnew : s.noBucket id) (hone : fragmentCount m = 1) :
    deframe (arrivalBlock id m 0) s = .ok (.single, s.delivered m) := by
  have htotal : (arrival id m 0).frameTotal = 1#8 := congrArg (BitVec.ofNat 8) hone
  have hpay : (arrival id m 0).payload = m ++ zeros (50 * fragmentCount m - m.length) := by
    rw [← flatMap_padded_all, hone]
    exact (List.flatMap_singleton (fun i => padded (messageSlice m i)) 0).symm
  have hkept : freeById (arrival id m 0).frameId s.slots = s.slots := freeById_of_noBucket hnew
  rw [deframe_arrival id hlen hmax (by omega), if_pos htotal, singleFragment, hpay, hkept]
  rfl

/-! ### A message of several fragments -/

/-- The state in which slot `k` gathers the fragments `is` of `m`, all else as in `s`. -/
def State.gathering (s : State) (k : Nat) (id : Word) (m : List Byte) (is : List Nat) : State :=
  if is = [] then s else s.setSlot k (some (collected id m is))

section

variable {s : State} {k : Nat} {id : Word} {m : List Byte} {is : List Nat}

theorem gathering_delivery : SameDelivery s (s.gathering k id m is) ∧ (s.gathering k id m is).cfg = s.cfg := by
  unfold State.gathering
  split
  · exact ⟨⟨rfl, rfl, rfl⟩, rfl⟩
  · exact ⟨⟨rfl, rfl, rfl⟩, rfl⟩

theorem gathering_setSlot (v : Slot) : (s.gathering k id m is).setSlot k v = s.setSlot k v := by
  unfold State.gathering
  split
  · rfl
  · rw [State.setSlot, State.setSlot_slots, List.set_set]
    rfl

/-- Freeing the slot gives back the state before the first fragment. -/
theorem setSlot_none_of_lowestFree (hk : s.lowestFree k) : s.setSlot k none = s := by
  obtain ⟨hlt, hnone⟩ := List.getElem?_eq_some_iff.mp hk.1
  have hslots : s.slots.set k none = s.slots := by
    conv_lhs => rw [← hnone]
    exact List.set_getElem_self hlt
  rw [State.setSlot, hslots]
  rfl

theorem bucketAt_gathering (hnew : s.noBucket id) (hk : s.lowestFree k) :
    (s.setSlot k (some (collected id m is))).bucketAt k (collected id m is) := by
  have hlt : k < s.slots.length := (List.getElem?_eq_some_iff.mp hk.1).1
  refine ⟨List.getElem?_set_self hlt, fun j hj c hc => ?_⟩
  rw [State.setSlot_slots, List.getElem?_set_ne (by omega)] at hc
  rw [(collected_frameId_total id m is).1]
  exact hnew c (mem_buckets.mpr (List.mem_of_getElem? hc))

/-- While slot `k` gathers, the next fragment goes to it: as a newcomer (R159), or to its bucket (R158). -/
theorem multiFragment_gathering (i : Nat) (hnew : s.noBucket id) (hk : s.lowestFree k) :
    multiFragment (arrival id m i) (s.gathering k id m is) =
      storeFragment k (collected id m is) (arrival id m i) (s.gathering k id m is) := by
  obtain ⟨hid, htotal⟩ := collected_frameId_total id m is
  by_cases hnil : is = []
  · subst hnil
    exact multiFragment_newcomer hnew hk
  · rw [State.gathering, if_neg hnil]
    exact multiFragment_found (bucketAt_gathering hnew hk) hid htotal

end

/-- A message that reaches a host whose store can take it: what R166 asks for, with slot `k` the lowest free one. -/
structure Receivable (s : State) (k : Nat) (id : Word) (m : List Byte) : Prop where
  length : m.length ≤ 12750
  count  : fragmentCount m ≤ s.cfg.maxFrag.toNat
  new    : s.noBucket id
  free   : s.lowestFree k

section

variable {s : State} {k : Nat} {id : Word} {m : List Byte} {is : List Nat} {i : Nat}

/-- A fragment of a set of two or more goes to the slot that gathers the set. -/
theorem Receivable.deframe (h : Receivable s k id m) (hmulti : fragmentCount m ≠ 1) (hi : i < fragmentCount m) :
    Machine.deframe (arrivalBlock id m i) (s.gathering k id m is) =
      .ok (storeFragment k (collected id m is) (arrival id m i) (s.gathering k id m is)) := by
  have htotal : (arrival id m i).frameTotal ≠ 1#8 := fun e =>
    hmulti ((fragment_numbers 0x01#8 id h.length hi).2.symm.trans (congrArg BitVec.toNat e))
  have hcount : fragmentCount m ≤ (s.gathering k id m is).cfg.maxFrag.toNat := by
    rw [gathering_delivery.2]
    exact h.count
  rw [deframe_arrival id h.length hcount hi, if_neg htotal, multiFragment_gathering i h.new h.free]

theorem arrival_order (id : Word) (hlen : m.length ≤ 12750) (hi : i < fragmentCount m) :
    (arrival id m i).frameOrder.toNat = i + 1 := (fragment_numbers 0x01#8 id hlen hi).1

/-- Storing fragment `i` gathers it too. -/
theorem collected_store_arrival (id : Word) (is : List Nat) (hlen : m.length ≤ 12750) (hi : i < fragmentCount m) :
    (collected id m is).store (arrival id m i).frameOrder.toNat (arrival id m i).payload =
      collected id m (is ++ [i]) := by
  rw [arrival_order id hlen hi, collected_concat]
  rfl

theorem arrival_notMem_held (id : Word) (hlen : m.length ≤ 12750) (hi : i < fragmentCount m) (hnot : i ∉ is) :
    (arrival id m i).frameOrder.toNat ∉ (collected id m is).held := by
  rwa [arrival_order id hlen hi, mem_collected_held]

/-- While another fragment `j` is missing, fragment `i` is gathered (R163). -/
theorem Receivable.deframe_gathered (h : Receivable s k id m) {j : Nat} (hi : i < fragmentCount m) (hnot : i ∉ is)
    (hj : j < fragmentCount m) (hmissing : j ∉ is ++ [i]) :
    Machine.deframe (arrivalBlock id m i) (s.gathering k id m is) = .ok (.stored, s.gathering k id m (is ++ [i])) := by
  have hne : j ≠ i := fun e => hmissing (by simp [e])
  have hwaits : (collected id m (is ++ [i])).complete = false := by
    rw [← collected_store_arrival id is h.length hi]
    refine store_complete_eq_false (j := j + 1) (by omega) ?_ ?_ ?_
    · rw [collected_total_toNat id is h.length]
      exact hj
    · rw [arrival_order id h.length hi]
      omega
    · rw [mem_collected_held]
      exact fun hmem => hmissing (List.mem_append_left _ hmem)
  rw [h.deframe (by omega) hi, storeFragment_stored (arrival_notMem_held id h.length hi hnot)
    (by rwa [collected_store_arrival id is h.length hi]), collected_store_arrival id is h.length hi, gathering_setSlot,
    State.gathering, if_neg (by simp)]

/-- The last fragment completes the message and frees the slot (R164). -/
theorem Receivable.deframe_completed (h : Receivable s k id m) (hmulti : fragmentCount m ≠ 1)
    (hi : i < fragmentCount m) (hnot : i ∉ is) (hall : ∀ j, j ∈ is ++ [i] ↔ j < fragmentCount m) :
    Machine.deframe (arrivalBlock id m i) (s.gathering k id m is) = .ok (.completed, s.delivered m) := by
  rw [h.deframe hmulti hi, storeFragment_completed (arrival_notMem_held id h.length hi hnot)
    (by rw [collected_store_arrival id is h.length hi]; exact collected_complete id h.length hall),
    collected_store_arrival id is h.length hi, gathering_setSlot, setSlot_none_of_lowestFree h.free,
    collected_message id h.length hall, State.delivered]

end

/-! ### All fragments, in any order -/

/-- Distinct numbers below `n` that are fewer than `n` miss one. -/
theorem exists_missing {is : List Nat} {n : Nat} (hlen : is.length < n) : ∃ j < n, j ∉ is := by
  by_contra hno
  push Not at hno
  have hsub : (List.range n).Subperm is :=
    List.nodup_range.subperm fun j hj => hno j (List.mem_range.mp hj)
  have := hsub.length_le
  rw [List.length_range] at this
  omega

/-- Any distinct fragments short of the whole are gathered, and nothing is delivered (R163, R166). -/
theorem Receivable.feedAll_gathering {s : State} {k : Nat} {id : Word} {m : List Byte} (h : Receivable s k id m)
    (is : List Nat) (hnodup : is.Nodup) (hrange : ∀ i ∈ is, i < fragmentCount m)
    (hshort : is.length < fragmentCount m) :
    feedAll (is.map (arrivalBlock id m)) s = .ok (s.gathering k id m is) := by
  induction is using List.reverseRecOn with
  | nil => rfl
  | append_singleton is i ih =>
    obtain ⟨hdistinct, -, hdisjoint⟩ := List.nodup_append.mp hnodup
    have hi : i < fragmentCount m := hrange i (by simp)
    have hnot : i ∉ is := fun hmem => hdisjoint i hmem i (by simp) rfl
    obtain ⟨j, hj, hmissing⟩ := exists_missing hshort
    rw [List.length_append] at hshort
    have hbefore := ih hdistinct (fun l hl => hrange l (List.mem_append_left _ hl)) (by omega)
    rw [List.map_append]
    exact feedAll_concat hbefore (h.deframe_gathered hi hnot hj hmissing)

/-- All the fragments, in any order, deliver the message (R164, R166). -/
theorem Receivable.feedAll_delivered {s : State} {k : Nat} {id : Word} {m : List Byte} (h : Receivable s k id m)
    (hone : 1 ≤ fragmentCount m) {is : List Nat} (hperm : is.Perm (List.range (fragmentCount m))) :
    feedAll (is.map (arrivalBlock id m)) s = .ok (s.delivered m) := by
  by_cases hsingle : fragmentCount m = 1
  · rw [hsingle] at hperm
    rw [List.perm_singleton.mp hperm]
    exact feedAll_cons [] (deframe_only_fragment h.length h.count h.new hsingle)
  · have hall : ∀ j, j ∈ is ↔ j < fragmentCount m := fun j => hperm.mem_iff.trans List.mem_range
    have hnodup : is.Nodup := hperm.nodup_iff.mpr List.nodup_range
    have hlength : is.length = fragmentCount m := hperm.length_eq.trans List.length_range
    rcases List.eq_nil_or_concat is with rfl | ⟨before, i, rfl⟩
    · simp at hlength
      omega
    · rw [List.concat_eq_append] at *
      obtain ⟨hdistinct, -, hdisjoint⟩ := List.nodup_append.mp hnodup
      have hnot : i ∉ before := fun hmem => hdisjoint i hmem i (by simp) rfl
      have hgathered := h.feedAll_gathering before hdistinct
        (fun j hj => (hall j).mp (List.mem_append_left _ hj)) (by rw [← hlength, List.length_append]; simp)
      rw [List.map_append]
      exact feedAll_concat hgathered (h.deframe_completed hsingle ((hall i).mp (by simp)) hnot hall)

/-- A rearrangement of a list's images is the image of a rearrangement. -/
theorem exists_perm_of_perm_map {α β : Type} {f : α → β} {l : List α} {bs : List β} (h : bs.Perm (l.map f)) :
    ∃ as : List α, as.Perm l ∧ bs = as.map f := by
  have hmem := List.mem_permutations.mpr h
  rw [← List.map_permutations] at hmem
  obtain ⟨as, has, rfl⟩ := List.mem_map.mp hmem
  exact ⟨as, List.mem_permutations.mp has, rfl⟩

/-- Settles O33: the blocks are the fragments' in the order of some rearrangement of `0 .. N-1`; all of them deliver the
message, and the first few, short of all, are only gathered. -/
theorem reassemblyInAnyOrder : Obligations.ReassemblyInAnyOrder := by
  intro s m id sent arrived hlow hlen hmax hnew hfree hsent hperm
  obtain ⟨k, hk⟩ := Option.ne_none_iff_exists'.mp (mt freeSlot_eq_none.mp (not_not.mpr hfree))
  have h : Receivable s k id m := ⟨hlen, hmax, hnew, freeSlot_eq_some.mp hk⟩
  have hone : 1 ≤ fragmentCount m := by
    unfold fragmentCount ceilDiv Config.payloadLen
    omega
  obtain rfl : (List.range (fragmentCount m)).map (arrivalBlock id m) = sent := by
    rw [encodeAll_ok fragments_fit, fragments, List.map_map] at hsent
    exact Except.ok.inj hsent
  obtain ⟨is, his, rfl⟩ := exists_perm_of_perm_map hperm
  refine ⟨⟨_, h.feedAll_delivered hone his, rfl⟩, fun early late hsplit hlate => ?_⟩
  obtain ⟨first, rest, rfl, rfl, rfl⟩ := List.map_eq_append_iff.mp hsplit
  obtain ⟨hdistinct, -, -⟩ := List.nodup_append.mp (his.nodup_iff.mpr List.nodup_range)
  have hshort : first.length < fragmentCount m := by
    have hlength := his.length_eq
    rw [List.length_append, List.length_range] at hlength
    have hpos : rest.length ≠ 0 := fun e => hlate (by rw [List.eq_nil_of_length_eq_zero e]; rfl)
    omega
  have hrange : ∀ i ∈ first, i < fragmentCount m := fun i hi =>
    List.mem_range.mp (his.mem_iff.mp (List.mem_append_left _ hi))
  obtain ⟨hmsg, hseq, hrx⟩ := (gathering_delivery (s := s) (k := k) (id := id) (m := m) (is := first)).1
  exact ⟨_, h.feedAll_gathering first hdistinct hrange hshort, hrx, hmsg, hseq⟩

end Sys2Proof.Machine
end
